-- ==== Sys2Proof/Word.lean ====
section
/-!
DEFINITION. The word types of the block: a register (R17), a 16-byte wire slot (R13), a byte.
-/

namespace Sys2Proof

/-- A 64-bit register, a DARN-protected value or a 64-bit field of a record (R17). -/
abbrev Word := BitVec 64

/-- A 16-byte slot on the wire, little-endian (R13). -/
abbrev Slot := BitVec 128

/-- One byte of host memory. -/
abbrev Byte := BitVec 8

end Sys2Proof
end

