-- ==== Sys2Proof/Syntax.lean ====
section
/-!
DEFINITION. The commands of the block: one constructor per row of spec/opcode_table.json, with the data that the
outside (the host die, a link partner, a pin, the management bus) presents with it.
-/

namespace Sys2Proof

/-- What the DARN check of an SRAM word or a bus word found (Table 0.7): nothing, an error it corrected,
or an error it could not correct. The outside decides when a bit flips, so the finding is an operand. -/
inductive Darn where
  | good | corrected | bad
  deriving DecidableEq, Repr

/-- A packet: its header slot and its data slots (§3.3). `bad` says that its data carries an uncorrectable DARN error,
so that it must not land (R142). -/
structure Packet where
  hdr : Slot
  data : List Slot := []
  bad : Bool := false
  deriving DecidableEq, Repr

/-- One DARN word of a host-channel beat as it arrives (R264): data, tag bits, the check's finding, RS_POISON. -/
structure HostWord where
  data : BitVec 256
  tag : BitVec 8
  darn : Darn := .good
  poison : Bool := false
  deriving DecidableEq, Repr

/-- What the DARN checks found while a request was checked: its Segment Map entry, the counter-group entry, the
counter (R65, R69, R159). -/
structure Finds where
  seg : Darn := .good
  grp : Darn := .good
  ctr : Darn := .good
  deriving DecidableEq, Repr

/-- An operand, and what the check of the counter that the command meets finds (R159). -/
structure Checked (α : Type) where
  what : α
  d : Darn := .good
  deriving DecidableEq, Repr

/-- An operand, and fabric time in 1/16 ns. -/
structure Timed (α : Type) where
  what : α
  now : Nat
  deriving DecidableEq, Repr

/-- What the host does with a channel's RQ_READY from now on (Table 7.1): nothing new, 1, or 1 for `n` more transfers and then 0. -/
inductive RqReady where
  | keep
  | high
  | upTo (n : Nat)
  deriving DecidableEq, Repr

/-- TAG of a response header (R260), and the channel's RQ_READY. -/
structure HostTag where
  tag : Nat
  rq : RqReady := .keep
  deriving DecidableEq, Repr

/-- TAG and BEAT of a response header of read data (R260), and the channel's RQ_READY. -/
structure RsTag where
  tag : Nat
  beat : Nat
  rq : RqReady := .keep
  deriving DecidableEq, Repr

/-- RP_PRIV and RP_WCHK of a register-port write (Table 7.6). -/
structure Rp where
  priv : Bool
  wchk : Nat
  deriving DecidableEq, Repr

/-- RP_WDATA and RP_WCHK of a register-port write that any writer may make (Tables 7.6, 15.1). -/
structure RpWord where
  v : Word
  wchk : Nat
  deriving DecidableEq, Repr

/-- A register-port read (Table 7.6): what it reads, RP_WDATA, which says nothing but enters the parity, and RP_WCHK. -/
structure RpRead (α : Type) where
  what : α
  wdata : Word := 0
  wchk : Nat
  deriving DecidableEq, Repr

/-- A request over Mildom that carries no operand of its own (Table 14.2): its command byte, the bytes behind it, its CRC. -/
structure MildomReq where
  code : Nat := 5
  data : List Byte := []
  crc : Nat
  deriving DecidableEq, Repr

/-- What a write acknowledgement's checks find: of its header, and of the counter that the write advances (R159, R264). -/
structure AckFinds where
  hdr : Darn := .good
  ctr : Darn := .good
  deriving DecidableEq, Repr

/-- What the sixteen data lanes bring since the last such command: the PAM4 levels 0 to 3 of each lane, in order (R378). -/
abbrev Air := List (List Nat)

/-- A 66-bit block of the pilot lane as it arrives: sync header in bits [1:0], scrambled payload above (R383). -/
abbrev PilotBlock := BitVec 66

/-- Blocks that a port's pilot lane brings. -/
structure PilotRun where
  p : Nat
  m : List PilotBlock
  deriving DecidableEq, Repr

/-- An entry register whose read advances an index (R548), or another register that the port reads. -/
inductive IndexedReg where
  | segmap | ctr
  /-- HIGH of program-store window `x`. -/
  | pstore (x : Nat)
  | route | ctxt
  /-- The register at a word index of the window whose read has no row of its own. -/
  | plain (w : Nat)
  deriving DecidableEq, Repr

/-- The commands. A port is 0 to 5, an engine or a host channel 0 to 11, a stream 0 to 255; `rp` says whether a
register-port write is marked privileged, and its parity; `now` is fabric time in 1/16 ns. -/
inductive Instr where
  /-- `COLD_RST_ASSERT` (R511). Assertion of COLD_RST_N starts a cold reset at once; links drop without announcement
  and no dump is written. -/
  | coldRstAssert
  /-- `COLD_RST_RELEASE` (R416). Release of cold reset samples the straps and starts the start-up sequence at the fuse
  load. Operands: CSEL, the coordinate straps and the provisional ID's random bits. -/
  | coldRstRelease (csel : Bool) (x y prov : Nat)
  /-- `FUSE_LOAD` (R416). The fuses have been read twice and compared; start-up stops on a mismatch, otherwise the
  SRAM self-test begins. Operands: Whether the two reads agree. -/
  | fuseLoad (agree : Bool)
  /-- `SRAM_SELF_TEST` (R423). The march test and repair of every on-block SRAM ends, with the effects of Table 11.4
  for unrepaired SRAMs. Operands: Engines and ports whose SRAM stays unrepaired, by mask; whether another SRAM does.
  -/
  | sramSelfTest (eng port : Nat) (other : Bool)
  /-- `MANAGEMENT_BOOT` (R424). The 100 ms boot wait for a Mildom image ends and the core runs the offered image if it
  passed its check, or the ROM image. -/
  | managementBoot
  /-- `STARTUP_TRAINING_END` (R418). Start-up steps 6 and 7 end together once every port has settled and the chip is
  time-locked. -/
  | startupTrainingEnd
  /-- `KNOWN_ANSWER_RUN` (R440). Each good engine and the sequencer finish their known-answer runs; failures mark them
  not good. Operands: Engines that fail, by mask; whether the sequencer passes. -/
  | knownAnswerRun (eng : Nat) (seqOk : Bool)
  /-- `THERMTRIP` (R527). At 110 degrees C the block drives THERMTRIP_N low and sets TRIPPED. -/
  | thermtrip
  /-- `ENTDAA` (R516). The board management controller assigns the block its I3C dynamic address. Operands: The
  dynamic address. -/
  | entdaa (addr : Nat)
  /-- `MILDOM_REG_READ` (R513). A Mildom REG_READ returns one register word of the window as a privileged read.
  Operands: Word index and the CRC that came. -/
  | mildomRegRead (reg : Checked Nat) (crc : Nat)
  /-- `MILDOM_REG_WRITE` (R515). A Mildom REG_WRITE performs a privileged write to one register word. Operands: Word
  index, value and the CRC that came. -/
  | mildomRegWrite (reg : Nat) (v : Checked Word) (crc : Nat)
  /-- `IMAGE_OFFER` (R424). During the boot wait the controller offers a firmware image of the given length. -/
  | imageOffer (len crc : Nat)
  /-- `IMAGE_DATA` (R424). The controller delivers up to 256 image bytes at a byte offset. -/
  | imageData (off : Nat) (data : List Byte) (crc : Nat)
  /-- `IMAGE_END` (R426). The offered image is complete and its check starts; Mildom answers BUSY meanwhile. Operands: The
  request; command byte 0x05 is IMAGE_END, one outside Table 14.2 is answered BAD_COMMAND (R514). -/
  | imageEnd (q : MildomReq)
  /-- `IMAGE_CHECK_DONE` (R426). The image check finishes, recording any failure cause in FW_LOAD.CAUSE. Operands:
  Whether the digest and the signature verify. -/
  | imageCheckDone (digest sig : Bool)
  /-- `MILDOM_RESET` (R515). A Mildom RESET requests a compute-domain or block reset with cause MILDOM. -/
  | mildomReset (level crc : Nat)
  /-- `BYPASS` (R517). The JTAG BYPASS instruction selects the one-bit bypass register. -/
  | bypass
  /-- `IDCODE` (R519). The JTAG IDCODE instruction returns the manufacturer code, part number 0x05C6 and version 0x1.
  -/
  | idcode
  /-- `SAMPLE_PRELOAD` (R517). The JTAG SAMPLE/PRELOAD instruction samples or preloads the boundary-scan register.
  Operands: The pins as sampled, the value shifted in. -/
  | samplePreload (sampled preload : Nat)
  /-- `EXTEST` (R518). JTAG EXTEST holds every port in DOWN and stops traffic and tick actions until a cold reset. -/
  | extest
  /-- `EXTEST_PULSE` (R518). IEEE 1149.6 EXTEST_PULSE on the lanes, with every port held in DOWN until a cold reset.
  -/
  | extestPulse
  /-- `EXTEST_TRAIN` (R518). IEEE 1149.6 EXTEST_TRAIN on the lanes, with every port held in DOWN until a cold reset.
  -/
  | extestTrain
  /-- `REG_ACCESS` (R519). The JTAG REG_ACCESS instruction gives privileged register-window access, refused once the
  key root is written. Operands: A write or a read, the word index, the value. -/
  | regAccess (write : Bool) (reg : Nat) (v : Checked Word)
  /-- `FUSE_WRITE` (R545). The JTAG FUSE_WRITE instruction makes the single write of the variant code. Operands: The
  variant code. -/
  | fuseWrite (code : Nat)
  /-- `MBIST` (R517). The JTAG MBIST instruction runs the SRAM self-test on demand, refused once the key root is
  written. Operands: What stays unrepaired, as for SRAM_SELF_TEST. -/
  | mbist (eng port : Nat) (other : Bool)
  /-- `REGISTER_WRITE` (R532). A write to a register with no row of its own stores the value if privileged, or is
  ignored and counted in PAGE_ERRORS. Operands: Privilege, word index, value, RP_WCHK. -/
  | registerWrite (priv : Bool) (reg : Nat) (v : Checked Word) (wchk : Nat)
  /-- `INDEXED_ENTRY_READ` (R548). A read of a selected table entry returns it and advances the index when AUTO_INC is
  set. Operands: The entry register read, and what the check of a counter finds. -/
  | indexedEntryRead (t : Checked (RpRead IndexedReg))
  /-- `STREAM_ENABLE` (R85). Setting a stream enable bit reads and checks the stream-table entry and restarts the
  stream's counts and doorbell. Operands: Which of the four enable registers. -/
  | streamEnable (rp : Rp) (k : Nat) (v : Word)
  /-- `DOORBELL` (R87). A doorbell write sets CQ_TAIL and CR_HEAD, and the block starts reading new descriptors. -/
  | doorbell (st : Nat) (v : RpWord)
  /-- `KERNEL_BOUNDARY_COMMAND` (R277). A write of 1 to HC0.KB_MARK increments KB_COUNT and, if enabled, advances the
  selected arrival counter. Operands: The value written, and what the check of the counter finds. -/
  | kernelBoundaryCommand (v : Checked RpWord)
  /-- `SEGMAP_ENTRY_WRITE` (R55). A write to SEGMAP.ENTRY replaces the selected entry whole, or is refused and
  counted. -/
  | segmapEntryWrite (rp : Rp) (v : Word)
  /-- `SEGMAP_FENCE_REQUEST` (R74). Writing FENCE.REQUEST clears DONE and starts or extends the Segment Map fence.
  Operands: REQUEST is 1. -/
  | segmapFenceRequest (rp : Rp) (v : Word)
  /-- `SEGMAP_FENCE_DONE` (R74). FENCE.DONE sets once every request checked before the fence request has finished with
  host memory. -/
  | segmapFenceDone
  /-- `KEY_ROOT_WRITE` (R59). The first write of SEGMAP.KEY_ROOT after a cold reset sets the root; later writes are
  refused under R20. -/
  | keyRootWrite (rp : Rp) (v : Word)
  /-- `DERIVE_IN_WRITE` (R60). Writing SEGMAP.DERIVE_IN makes DERIVE_OUT reflect the wire key for those inputs at
  once. -/
  | deriveInWrite (rp : Rp) (v : Word)
  /-- `CTR_VALUE_WRITE` (R175). A write to CTR.VALUE replaces the selected counter's value and clears POISONED. -/
  | ctrValueWrite (rp : Rp) (v : Word)
  /-- `CTR_ADD_WRITE` (R175). A write to CTR.ADD adds to the selected counter, or is dropped and counted if the
  counter is poisoned. Operands: Privilege, the value written, what the check of the counter finds. -/
  | ctrAddWrite (rp : Rp) (v : Checked Word)
  /-- `CTR_GROUP_ENTRY_WRITE` (R68). A write to CTR.GROUP_ENTRY replaces the selected arrival-counter group entry. -/
  | ctrGroupEntryWrite (rp : Rp) (v : Word)
  /-- `CTR_FENCE_REQUEST` (R176). Writing CTR.FENCE.REQUEST clears DONE and starts or extends the counter fence.
  Operands: REQUEST is 1. -/
  | ctrFenceRequest (rp : Rp) (v : Word)
  /-- `CTR_FENCE_DONE` (R176). CTR.FENCE.DONE sets once earlier class 0x1 requests and pending mirror writes have
  finished. -/
  | ctrFenceDone
  /-- `MIRROR_WRITE` (R157). After a counter change the block writes the counter's current value to its mirror slot,
  merging pending writes. Operands: The counter, and what its check finds. -/
  | mirrorWrite (ctr : Checked Nat)
  /-- `PROFILE_WRITE` (R188). A privileged write to a reduce profile takes effect for later packets, or is refused if
  its formats or operation are invalid. Operand: the profile. -/
  | profileWrite (rp : Rp) (p : Nat) (v : Word)
  /-- `SEED_WRITE` (R197). A write to MANGLE0.SEED restarts the selected stream's generator from the seed. -/
  | seedWrite (rp : Rp) (v : Word)
  /-- `UCODE_LOAD_REQUEST` (R212). Writing UCODE_LOAD.REQUEST starts a microcode load on a quiesced or failed engine.
  Operands: REQUEST is 1. -/
  | ucodeLoadRequest (rp : Rp) (e : Nat) (v : Word)
  /-- `UCODE_LOAD_DONE` (R212). The microcode image check and known-answer run finish, setting DONE, FAILED or STATE
  0x5. Operands: Whether digest and signature verify, and whether the run passes. -/
  | ucodeLoadDone (e : Nat) (digest sig ok : Bool)
  /-- `ENGINE_QUIESCE` (R211). Setting or clearing a Mangle page's QUIESCE takes the engine out of dispatch after its
  unit, or returns it to dispatch. -/
  | engineQuiesce (rp : Rp) (e : Nat) (v : Word)
  /-- `HOST_CHANNEL_QUIESCE` (R280). Setting or clearing a host channel's QUIESCE drains it and redirects its
  addresses, or returns them to it. -/
  | hostChannelQuiesce (rp : Rp) (n : Nat) (v : Word)
  /-- `HOST_CHANNEL_DISABLE` (R537). Clearing or setting a host channel's ENABLE disables or enables it, refused if no
  channel would stay enabled. -/
  | hostChannelDisable (rp : Rp) (n : Nat) (v : Word)
  /-- `LINK_QUIESCE` (R366). Setting a link page's QUIESCE stops new commits to the port until it is cleared. -/
  | linkQuiesce (rp : Rp) (p : Nat) (v : Word)
  /-- `HOST_CHANNEL_MAP_WRITE` (R279). A write to HC0.INTERLEAVE, the channel map or HOST_CAPS is accepted only while
  every channel is quiesced or disabled. Operands: Which of the six registers from HC0.INTERLEAVE to HC0.HOST_CAPS, in
  offset order. -/
  | hostChannelMapWrite (rp : Rp) (k : Nat) (v : Word)
  /-- `PSTORE_HIGH_WRITE` (R254). A write to PSTORE HIGH stores LOW and HIGH as one instruction unless the region is
  locked. -/
  | pstoreHighWrite (rp : Rp) (x : Nat) (v : Word)
  /-- `PSTORE_LOW_READ` (R254). A read of PSTORE LOW returns the low half of the instruction and latches the high
  half. -/
  | pstoreLowRead (x : RpRead Nat)
  /-- `PSTORE_LOCK_WRITE` (R221). A write to FOLD.PSTORE_LOCK sets locks at once and requests pending clears. -/
  | pstoreLockWrite (rp : Rp) (v : Word)
  /-- `LOCK_CLEAR_TAKES_EFFECT` (R221). A pending lock clear takes effect once no running program has its counter in
  the region. Operands: The region. -/
  | lockClearTakesEffect (g : Nat)
  /-- `ROUTE_ENTRY_WRITE` (R303). A write to a route-table entry of a RETIRED set is accepted, or is refused and
  counted. -/
  | routeEntryWrite (rp : Rp) (v : Word)
  /-- `SWITCH_TICK_WRITE` (R306). A write to ROUTE.SWITCH_TICK arms the other set for a switch, refused unless that
  set is RETIRED and the tick is far enough ahead. -/
  | switchTickWrite (rp : Rp) (v : Word)
  /-- `ROUTE_GROUP_ENTRY_WRITE` (R313). A write to a multicast group entry sets its bounding box, refused if it names
  coordinates outside the topology. -/
  | routeGroupEntryWrite (rp : Rp) (v : Word)
  /-- `HAMPER_LIMITS_WRITE` (R320). A write to HAMPER_LIMITS sets the flush thresholds, refused if RESUME_AT is not
  below FLUSH_AT. -/
  | hamperLimitsWrite (rp : Rp) (v : Word)
  /-- `HAMPER_FLUSH_WRITE` (R321). A write to ROUTE.HAMPER_FLUSH closes the matching held packets and sets BUSY. -/
  | hamperFlushWrite (rp : Rp) (v : Word)
  /-- `HAMPER_FLUSH_DONE` (R321). The last closed packet has been discarded and its FLUSHED note sent, so BUSY clears.
  -/
  | hamperFlushDone
  /-- `DOWN_REQ` (R367). Writing DOWN_REQ takes the port down with cause SOFTWARE. Operands: DOWN_REQ is 1. -/
  | downReq (rp : Rp) (p : Nat) (v : Word)
  /-- `RETRAIN` (R399). Writing RETRAIN takes the port down with cause SOFTWARE, clears any test mode and restarts
  training at step 1. Operands: RETRAIN is 1. -/
  | retrain (rp : Rp) (p : Nat) (v : Word)
  /-- `RELEASE` (R364). Writing RELEASE moves a quarantined port to TRAINING. Operands: RELEASE is 1. -/
  | release (rp : Rp) (p : Nat) (v : Word)
  /-- `CREDIT_LIMIT_WRITE` (R372). A write to a receive credit limit takes effect at the next INIT, or is refused if
  the totals are exceeded. -/
  | creditLimitWrite (rp : Rp) (p : Nat) (v : Word)
  /-- `CLASS_SHARE_WRITE` (R373). A write to CLASS_SHARE sets the class shares from the next tick edge, refused if
  they exceed 256. -/
  | classShareWrite (rp : Rp) (p : Nat) (v : Word)
  /-- `BITSLIP_WRITE` (R396). A write to BITSLIP delays one lane's sampling by the given number of bits during
  alignment. -/
  | bitslipWrite (rp : Rp) (p : Nat) (v : Word)
  /-- `TEST_MODE_WRITE` (R408). A write to Pn_LANE.TEST starts a loopback or pattern test, accepted only in DOWN or
  QUARANTINE. -/
  | testModeWrite (rp : Rp) (p : Nat) (v : Word)
  /-- `RINSE_REQUEST` (R453). Writing CTXT.RINSE arms a Rinse of the context for the next tick edge, refused while a
  Rinse is in progress. Operands: The request bit is 1. -/
  | rinseRequest (rp : Rp) (v : Word)
  /-- `RINSE_START` (R454). At the start edge the Rinse writes its dump and removes the context's work as Table 12.1
  gives. -/
  | rinseStart
  /-- `RINSE_COMPLETE` (R455). At the first edge after the VALID pass, the drain and the removals end, the Rinse sets
  DONE and the context returns to IDLE. -/
  | rinseComplete
  /-- `CONTEXT_HOLD_WRITE` (R451). Setting CTXT.ENTRY.HOLD stops admission from the context's streams. -/
  | contextHoldWrite (rp : Rp) (v : Word)
  /-- `SOLO_WRITE` (R452). Setting or clearing CTXT.SOLO.ENABLE restricts admission to one context, or lifts the
  restriction. -/
  | soloWrite (rp : Rp) (v : Word)
  /-- `RESET_REQUEST_ENGINE` (R459). An engine reset quiesces the engine, abandons its unit, clears its state and
  starts its known-answer run. Operands: ENGINE. -/
  | resetRequestEngine (rp : Rp) (e : Nat)
  /-- `SEQUENCER_RESET` (R460). An engine reset of the Fold sequencer stops every program with POISON, disarms every
  window and reruns the built-in programs. -/
  | sequencerReset (rp : Rp)
  /-- `ENGINE_RESET_DONE` (R459). The reset engine's known-answer run ends and the patch map is republished. Operands:
  The engine, 12 for the sequencer; whether its run passes. -/
  | engineResetDone (e : Nat) (ok : Bool)
  /-- `RESET_REQUEST_COMPUTE` (R462). A compute-domain reset begins absorption, stops issue and dispatch, and writes
  the dump. -/
  | resetRequestCompute (rp : Rp)
  /-- `CONTROL_POISON` (R463). An uncorrectable error in compute-domain control state starts a compute-domain reset.
  -/
  | controlPoison
  /-- `COMPUTE_RESET_DRAINED` (R462). Host channels and replay spill have drained and compute state is cleared, so the
  chip holds or restarts. -/
  | computeResetDrained
  /-- `RESET_RELEASE` (R464). Writing RELEASE lets a held chip leave step 7 and rerun start-up steps 8 and 9. -/
  | resetRelease (rp : Rp)
  /-- `RESET_REQUEST_BLOCK` (R467). A block reset announces DOWN, drops every link and resets the link and compute
  domains. -/
  | resetRequestBlock (rp : Rp)
  /-- `RINSE_DEADLINE` (R472). A Rinse that passes RINSE_TICKS escalates to engine resets, then to a compute-domain
  reset. -/
  | rinseDeadline
  /-- `ENGINE_DEADLINE` (R472). An engine reset that passes ENGINE_US escalates to a compute-domain reset. -/
  | engineDeadline
  /-- `COMPUTE_DEADLINE` (R472). A compute-domain reset that passes COMPUTE_MS escalates to a block reset. -/
  | computeDeadline
  /-- `BLOCK_DEADLINE` (R467). A block reset that passes BLOCK_MS holds every port in DOWN and asserts COLD_REQ. -/
  | blockDeadline
  /-- `ENGINE_HUNG` (R461). An engine or the sequencer makes no progress for HANG_KCYCLES and is reset automatically.
  Operands: The engine, 12 for the sequencer, and fabric time. -/
  | engineHung (e : Timed Nat)
  /-- `WATCHDOG_KICK` (R469). A firmware write to RESET.WATCHDOG.KICK restarts the watchdog period. Operands: Whether
  the running firmware writes. -/
  | watchdogKick (firmware : Bool) (v : RpWord)
  /-- `WATCHDOG_BITE` (R469). The watchdog period expires and the management core restarts, falling back to ROM after
  four quick bites. Operands: Fabric time. -/
  | watchdogBite (now : Nat)
  /-- `MANAGEMENT_RESTART_DONE` (R428). The management core finishes its restart and resumes Mildom and any
  interrupted training from step 1. -/
  | managementRestartDone
  /-- `FW_LOAD_REQUEST` (R427). Writing FW_LOAD.REQUEST reads an image from host memory for checking and staging.
  Operands: REQUEST is 1. -/
  | fwLoadRequest (rp : Rp) (v : Word)
  /-- `FW_LOAD_DONE` (R427). The image read and check end, staging the image or recording FAILED and CAUSE. Operands:
  Whether digest and signature verify. -/
  | fwLoadDone (digest sig : Bool)
  /-- `FW_ACTIVATE_WRITE` (R427). A write to FW_ACTIVATE.TICK arms activation, refused without a checked staged image
  or for a past tick. -/
  | fwActivateWrite (rp : Rp) (v : Word)
  /-- `FW_ACTIVATION` (R428). At the activation tick edge the management core restarts on the staged image. Operands:
  The outcome of a broadcast assembly's check. -/
  | fwActivation (digest sig : Bool)
  /-- `FW_BCAST_START` (R429). Writing FW_BCAST.START begins sending the staged image to every chip in rounds.
  Operands: START is 1. -/
  | fwBcastStart (rp : Rp) (v : Word)
  /-- `FW_CHUNK_SEND` (R429). The next FW_CHUNK of the broadcast is sent once its 2 us pacing allows, with FW_ACTIVATE
  after the last round. -/
  | fwChunkSend
  /-- `TOPO_SEAL_WRITE` (R434). A write to TOPO.SEAL is a free repeat, refused, or accepted, consuming a count and
  starting training. -/
  | topoSealWrite (rp : Rp) (v : Word)
  /-- `FEATURES_AGREED_WRITE` (R446). A write to IDENT.FEATURES_AGREED is accepted if it is a subset of the offer, has
  BASE set and no stream is enabled. -/
  | featuresAgreedWrite (rp : Rp) (v : Word)
  /-- `VARIANT_FUSED_WRITE` (R545). The one write of VARIANT.CODE.FUSED sets the variant for the next cold reset. -/
  | variantFusedWrite (rp : Rp) (v : Word)
  /-- `PORT_POWER_OFF` (R524). Setting a PORT_POWER.OFF bit powers a DOWN or QUARANTINE port down, pilot lane
  included. -/
  | portPowerOff (rp : Rp) (v : Word)
  /-- `PORT_POWER_ON` (R525). Clearing a PORT_POWER.OFF bit powers the port up within 2 ms, and it proceeds from DOWN.
  -/
  | portPowerOn (rp : Rp) (v : Word)
  /-- `CLOCK_REQUEST_WRITE` (R530). A write of REQUEST_MHZ sets the requested clock, clamps it above the fused clock,
  or is refused if invalid. -/
  | clockRequestWrite (rp : Rp) (v : Word)
  /-- `TIME_PERIOD_WRITE` (R482). A write to TIME.PERIOD on the acting master changes the tick period from the next
  edge. -/
  | timePeriodWrite (rp : Rp) (v : Word)
  /-- `BECOME_MASTER_WRITE` (R481). Setting TIME.CTRL.BECOME_MASTER makes the chip act as tick master. -/
  | becomeMasterWrite (rp : Rp) (v : Word)
  /-- `CTRS_CLEAR_WRITE` (R486). A write to CTRS.CLEAR names counter groups to clear and sets PENDING. -/
  | ctrsClearWrite (rp : Rp) (v : Word)
  /-- `COUNTER_CLEAR` (R486). At the next tick edge, after telemetry, the named always-on counters clear together. -/
  | counterClear
  /-- `TRACE_MARK` (R491). Any write to TRACE.MARK records a MARK trace event. -/
  | traceMark (v : RpWord)
  /-- `SNAPSHOT_REQUEST` (R497). Writing DEBUG.SNAPSHOT.REQUEST arms a snapshot for the next edge, refused while one
  runs or the compute domain is down. Operands: REQUEST is 1. -/
  | snapshotRequest (rp : Rp) (v : Word)
  /-- `SNAPSHOT` (R495). At its edge the block writes the hang snapshot without stopping, bounded in bandwidth. -/
  | snapshot
  /-- `CREASE_TICK_WRITE` (R498). A write to DEBUG.CREASE.TICK arms or disarms the crease. -/
  | creaseTickWrite (rp : Rp) (v : Word)
  /-- `CREASE_CUT` (R499). At tick T the chip stops issuing tracked traffic and admission, stops requester timers and
  records the cut. -/
  | creaseCut
  /-- `CREASE_RESUME_WRITE` (R502). A write to DEBUG.CREASE_RESUME.TICK arms the resume. -/
  | creaseResumeWrite (rp : Rp) (v : Word)
  /-- `CREASE_RESUME` (R502). At tick R the chip clears CREASED, resumes issue and admission and restarts the stopped
  timers. -/
  | creaseResume
  /-- `NOP` (R95). A NOP descriptor completes OK when its turn to issue comes. Operands: The stream whose queue holds
  it at its head. -/
  | nop (st : Nat)
  /-- `COPY` (R106). A COPY descriptor is admitted and cut into STORE and STORE_PART packets, or their _MC forms.
  Operands: The stream whose queue holds it at its head. -/
  | copy (st : Nat)
  /-- `PUT` (R106). A PUT descriptor stores its inline data at DST as STORE and STORE_PART packets. Operands: The
  stream whose queue holds it at its head. -/
  | put (st : Nat)
  /-- `GET` (R108). A GET descriptor reads a remote range by LOAD packets, or a counter by CTR_READ, and lands it
  locally. Operands: The stream whose queue holds it at its head. -/
  | get (st : Nat)
  /-- `ATOMIC` (R105). An ATOMIC descriptor issues one 8-byte atomic and lands the old value unless NO_RESULT is set.
  Operands: The stream whose queue holds it at its head. -/
  | atomic (st : Nat)
  /-- `DESC_REDUCE` (R107). A REDUCE descriptor is cut into REDUCE packets under the destination's reduce profile.
  Operands: The stream whose queue holds it at its head. -/
  | descReduce (st : Nat)
  /-- `DESC_CAS16` (R105). A CAS16 descriptor issues one 16-byte compare-and-swap. Operands: The stream whose queue
  holds it at its head. -/
  | descCas16 (st : Nat)
  /-- `DESC_SIGNAL` (R103). A SIGNAL descriptor sends one SIGNAL packet adding VALUE to a remote counter. Operands:
  The stream whose queue holds it at its head. -/
  | descSignal (st : Nat)
  /-- `FOLD` (R214). A FOLD descriptor is checked and hands the stream to the sequencer at ENTRY. Operands: The stream
  whose queue holds it at its head. -/
  | fold (st : Nat)
  /-- `WRING` (R203). A WRING descriptor compresses its source with the residual and sends it as MX REDUCE packets.
  Operands: The stream whose queue holds it at its head. -/
  | wring (st : Nat)
  /-- `DESC_TICK` (R95). A TICK descriptor holds the stream until the given or next tick edge. Operands: The stream
  whose queue holds it at its head. -/
  | descTick (st : Nat)
  /-- `TICK_HOLD_END` (R95). The awaited tick edge arrives and a TICK descriptor completes, releasing its stream.
  Operands: The stream. -/
  | tickHoldEnd (st : Nat)
  /-- `COMMAND_COMPLETION` (R115). Once every packet is covered, the command completes and its completion record is
  written unless QUIET and OK. Operands: The command, by its number in order of admission. -/
  | commandCompletion (id : Nat)
  /-- `COMMAND_TIMEOUT` (R127). A command passes its timeout at a tick edge, completes with TIMEOUT and breaks its
  flows. Operands: The command, by its number in order of admission. -/
  | commandTimeout (id : Nat)
  /-- `FSYNC_RETRY` (R123). No SYNC_ACK arrives within FOLD.TIMEOUT, so the source sends a new FSYNC. Operands: The
  flow. -/
  | fsyncRetry (peer cls : Nat)
  /-- `LOAD` (R108). An arriving LOAD is checked, reads host memory, and is answered with RESP_DATA or RESP_STATUS. -/
  | load (p : Packet) (f : Finds)
  /-- `STORE` (R103). An arriving STORE is checked, landed, advances its counter and is counted into its flow's
  receipt. -/
  | store (p : Packet) (f : Finds)
  /-- `STORE_PART` (R103). An arriving STORE_PART writes bytes FIRST to LAST of one slot after its checks. -/
  | storePart (p : Packet) (f : Finds)
  /-- `REDUCE` (R28). An arriving REDUCE takes the range lock, reads local data and is reduced in a Mangle engine
  before landing. -/
  | reduce (p : Packet) (f : Finds)
  /-- `SIGNAL` (R103). An arriving SIGNAL is checked and adds its value to the named counter. -/
  | signal (p : Packet) (f : Finds)
  /-- `CTR_READ` (R103). An arriving CTR_READ returns the counter's value, or POISON for a poisoned counter. -/
  | ctrRead (p : Packet) (f : Finds)
  /-- `FSYNC` (R110). An arriving FSYNC is counted in its flow and answered with a SYNC_ACK carrying the count. -/
  | fsync (p : Packet)
  /-- `STORE_MC` (R81). At each member an arriving STORE_MC is checked and landed independently, and is forwarded
  along the tree. -/
  | storeMc (p : Packet) (f : Finds)
  /-- `STORE_PART_MC` (R81). At each member an arriving STORE_PART_MC is checked and lands its byte range
  independently. -/
  | storePartMc (p : Packet) (f : Finds)
  /-- `REDUCE_MC` (R81). At each member an arriving REDUCE_MC is checked and reduced independently. -/
  | reduceMc (p : Packet) (f : Finds)
  /-- `REG_READ_PACKET` (R62). An arriving management REG_READ reads a register-window word and responds. -/
  | regReadPacket (p : Checked Packet)
  /-- `REG_WRITE_PACKET` (R62). An arriving management REG_WRITE writes a register-window word and responds. -/
  | regWritePacket (p : Checked Packet)
  /-- `FADD` (R105). An arriving FADD adds A to the 8-byte target atomically and returns the old value. -/
  | fAdd (p : Packet) (f : Finds)
  /-- `SWAP` (R105). An arriving SWAP writes A atomically and returns the old value. -/
  | swap (p : Packet) (f : Finds)
  /-- `CAS8` (R105). An arriving CAS8 writes B if the target equals A, returning the old value. -/
  | cas8 (p : Packet) (f : Finds)
  /-- `FAND` (R105). An arriving FAND ANDs A into the target atomically and returns the old value. -/
  | fAnd (p : Packet) (f : Finds)
  /-- `FOR` (R105). An arriving FOR ORs A into the target atomically and returns the old value. -/
  | fOr (p : Packet) (f : Finds)
  /-- `FXOR` (R105). An arriving FXOR XORs A into the target atomically and returns the old value. -/
  | fXor (p : Packet) (f : Finds)
  /-- `FMAX_S` (R105). An arriving FMAX_S keeps the signed maximum of the target and A and returns the old value. -/
  | fMaxS (p : Packet) (f : Finds)
  /-- `FMIN_S` (R105). An arriving FMIN_S keeps the signed minimum of the target and A and returns the old value. -/
  | fMinS (p : Packet) (f : Finds)
  /-- `FMAX_U` (R105). An arriving FMAX_U keeps the unsigned maximum of the target and A and returns the old value. -/
  | fMaxU (p : Packet) (f : Finds)
  /-- `FMIN_U` (R105). An arriving FMIN_U keeps the unsigned minimum of the target and A and returns the old value. -/
  | fMinU (p : Packet) (f : Finds)
  /-- `CAS16` (R140). An arriving CAS16 compares and swaps 16 aligned bytes indivisibly and returns the old value. -/
  | cas16 (p : Packet) (f : Finds)
  /-- `RESP_DATA` (R114). An arriving RESP_DATA is matched by TAG and its data is landed locally. -/
  | respData (p : Packet)
  /-- `RESP_STATUS` (R114). An arriving RESP_STATUS is matched by TAG and finishes its request with the status. -/
  | respStatus (p : Packet)
  /-- `RECEIPT` (R112). An arriving RECEIPT finishes every packet of its flow up to its count. -/
  | receipt (p : Packet)
  /-- `RECEIPT_MC` (R113). An arriving RECEIPT_MC of the current GEN adds its count to its group flow. -/
  | receiptMc (p : Packet)
  /-- `SYNC_ACK` (R123). An arriving SYNC_ACK completes the affected commands, resynchronises the broken flow and
  resumes it. -/
  | syncAck (p : Packet)
  /-- `TORN_NOTE` (R123). An arriving TORN_NOTE closes its TAG or breaks its flow, which stops issue and sends an
  FSYNC. -/
  | tornNote (p : Packet)
  /-- `FW_CHUNK` (R430). An arriving FW_CHUNK is added to the session's image assembly, or starts a new session. -/
  | fwChunk (p : Packet)
  /-- `FW_ACTIVATE` (R430). An arriving FW_ACTIVATE arms activation of a complete, checked assembly at its tick. -/
  | fwActivate (p : Packet)
  /-- `CAPTURE_FWD` (R326). An arriving CAPTURE_FWD is written as a collector record or discarded and counted. -/
  | captureFwd (p : Packet)
  /-- `TRACE_FWD` (R326). An arriving TRACE_FWD is written as a collector record or discarded and counted. -/
  | traceFwd (p : Packet)
  /-- `FORWARD_PACKET` (R292). The forwarding core reads a header slot and routes the packet by its epoch to a port,
  local delivery or a Hamper. Operands: Input 0 to 5, or 6 for local injection; lane 2·class + sub-channel; fabric
  time. -/
  | forwardPacket (input lane now : Nat)
  /-- `PACKET_COMMIT` (R294). Once an output has the needed credits, a waiting packet is committed to it and its slots
  follow. -/
  | packetCommit (port lane : Nat)
  /-- `TICK_EDGE` (R37). At each tick edge the block grants class budgets, samples telemetry and runs its power and
  thermal clock rules. Operands: Fabric time, hottest sensor in 1/8 °C, power estimate in 0.1 W, OFFSET of each port's
  TICK message. -/
  | tickEdge (now temp power : Nat) (offsets : List Nat)
  /-- `EPOCH_SWITCH` (R308). At SWITCH_TICK the armed set becomes current, the old one drains and the Hampers re-
  route. -/
  | epochSwitch
  /-- `EPOCH_RETIRE` (R306). DRAIN.COUNT is zero at two consecutive edges and the draining set becomes RETIRED. -/
  | epochRetire
  /-- `ROUTE_STALL_FLAG` (R301). A committed packet without credit for STALL.LIMIT edges sets the port's stall flag.
  -/
  | routeStallFlag (port lane : Nat)
  /-- `FLIT_SEND` (R333). At each flit time the link layer sends a replayed, new or IDLE flit, spilling the oldest on-
  block flit if needed. Operands: The port, and the classes that its arbiter turns to, in order. -/
  | flitSend (p : Nat) (picks : List Nat)
  /-- `NORMAL_FLIT` (R346). A received NORMAL flit is checked, accepted or discarded by sequence, its ACK and credits
  applied and its slots parsed. Operands: What the lanes bring up to its last bit; fabric time. -/
  | normalFlit (p : Nat) (air : Air) (now : Nat)
  /-- `IDLE_FLIT` (R346). A received IDLE flit applies its ACK and credit report and reveals lost flits. -/
  | idleFlit (p : Nat) (air : Air) (now : Nat)
  /-- `NAK_FLIT` (R350). A received NAK acknowledges and starts or restarts a replay at its ACK. -/
  | nakFlit (p : Nat) (air : Air) (now : Nat)
  /-- `INIT_MESSAGE` (R365). The peer's INIT control message is accepted and the port enters UP once its own INIT is
  acknowledged. -/
  | initMessage (p : Nat) (air : Air) (now : Nat)
  /-- `CREDIT_ADV` (R365). A CREDIT_ADV message sets the peer's advertised limits for four credit counters. Operands:
  One message of a CONTROL flit. -/
  | creditAdv (p : Nat) (m : Slot)
  /-- `REPLAY_TIMEOUT` (R352). REPLAY_TIMEOUT passes without O advancing, so a replay starts or, after REPLAY_LIMIT,
  the port goes down. -/
  | replayTimeout (p : Nat)
  /-- `INIT_TIMEOUT` (R367). A port not leaving INIT within 100 us goes down with cause INIT_TIMEOUT. -/
  | initTimeout (p : Nat)
  /-- `AUTO_RETRAIN` (R364). 1 us after entering DOWN with AUTO_RETRAIN set, the port starts training. -/
  | autoRetrain (p : Nat)
  /-- `PILOT_SYMBOL_LOCK` (R384). After 64 valid headers the pilot receiver gains symbol lock. Operands: The blocks that
  came at one boundary. -/
  | pilotSymbolLock (p : Nat) (m : List PilotBlock)
  /-- `PILOT_LOCK_LOSS` (R384). 16 invalid headers in 64 blocks lose pilot symbol lock and start a new search. Operands:
  The port, and the blocks that came. -/
  | pilotLockLoss (p : PilotRun)
  /-- `PILOT_LOSS_TIMEOUT` (R367). Pilot lock stays lost longer than PILOT_LOSS_US and the port goes down. -/
  | pilotLossTimeout (p : Nat)
  /-- `PILOT_MESSAGE_SEND` (R387). The pilot sender emits its periodic LINK_STATE, TRAIN, CAPS, SEAM or SEAM_RESULT
  message when due. Operands: The message due, the IDLE messages that leave before it (R385), fabric time. -/
  | pilotMessageSend (p mtype idles now : Nat)
  /-- `PILOT_IDLE` (R387). A received pilot IDLE message is taken and ignored. -/
  | pilotIdle (p : Nat) (m : List PilotBlock)
  /-- `PILOT_TICK` (R478). A TICK message from the parent yields its edge, and the chip slews, steps or half-rates its
  fabric time. -/
  | pilotTick (p : Nat) (m : List PilotBlock) (now : Nat)
  /-- `PILOT_TIME` (R438). A TIME message locks an unlocked chip to its parent, corrects time, or makes an acting
  master yield. -/
  | pilotTime (p : Nat) (m : List PilotBlock) (now : Nat)
  /-- `PARENT_LOSS` (R480). Two consecutive TICKs fail or the parent port loses lock, so the chip picks a new parent
  or enters holdover. Operands: Whether two TICKs in a row have failed. -/
  | parentLoss (missed : Bool)
  /-- `LINK_STATE` (R391). A LINK_STATE message showing the peer down takes this end down with cause PEER. -/
  | linkState (p : Nat) (m : List PilotBlock)
  /-- `TRAIN` (R390). A TRAIN message applies the peer's per-lane transmitter requests and step progress. -/
  | train (p : Nat) (m : List PilotBlock)
  /-- `CAPS` (R393). A CAPS message gives the peer's rates and modes for the rate choice. -/
  | caps (p : Nat) (m : List PilotBlock)
  /-- `SEAM` (R413). A SEAM message gives the peer's identity, versions and topology, from which this end works out
  its seam result. -/
  | seam (p : Nat) (m : List PilotBlock)
  /-- `SEAM_RESULT` (R414). The peer's SEAM_RESULT lets the port enter INIT when both agree, or sends it to
  QUARANTINE. -/
  | seamResult (p : Nat) (m : List PilotBlock)
  /-- `NO_SEAM_TIMEOUT` (R413). No SEAM arrives from the peer within 10 ms, and the result NO_SEAM quarantines the
  port. -/
  | noSeamTimeout (p : Nat)
  /-- `DELAY_REQ_SEND` (R409). In SEAM a DELAY_REQ is sent when the last response arrives or 200 us pass. -/
  | delayReqSend (p now : Nat)
  /-- `DELAY_REQ` (R409). A received DELAY_REQ is timestamped and answered with a DELAY_RESP. Operands: Times of its
  arrival and of its answer's leaving. -/
  | delayReq (p : Nat) (m : List PilotBlock) (t2 t3 : Nat)
  /-- `DELAY_RESP` (R410). A received DELAY_RESP gives one flight sample; after 256, FLIGHT, SPREAD and LINK are set.
  Operands: Time of its arrival. -/
  | delayResp (p : Nat) (m : List PilotBlock) (t4 : Nat)
  /-- `PILOT_STEP_END` (R392). Pilot lock and the peer's CAPS complete training step 1. -/
  | pilotStepEnd (p : Nat)
  /-- `RATE_STEP_END` (R393). Both ends reach the chosen rate, completing step 2. -/
  | rateStepEnd (p : Nat)
  /-- `DETECT_STEP_END` (R394). All sixteen lanes gain signal detect and clock lock, completing step 3. -/
  | detectStepEnd (p : Nat)
  /-- `ORDER_STEP_END` (R395). A consistent lane order and polarity are found, completing step 4, or training fails
  with LANE_ORDER. Operands: The 32 identity symbols of a training frame that each lane brings, and fabric
  time. -/
  | orderStepEnd (p : Nat) (ids : Air) (now : Nat)
  /-- `FOM_WINDOW_END` (R400). A measurement window of 2^30 symbols ends and each lane's figure of merit is computed.
  Operands: What each lane's window brought, as runs of symbols of the pattern with how often each came; each lane's eye
  height. -/
  | fomWindowEnd (p : Nat) (wins : List (List (Nat × List Nat))) (ehs : List Nat)
  /-- `ADAPT_STEP_END` (R401). Every lane meets FOM_MIN, by full adaptation or an accepted starch record, completing
  step 5. Operands: Peaking, gain and feedback taps of each lane. -/
  | adaptStepEnd (p : Nat) (settings : List (Nat × Nat × List Nat))
  /-- `ALIGN_STEP_END` (R396). Every lane has marker lock and the lanes are deskewed, completing step 6. -/
  | alignStepEnd (p : Nat)
  /-- `FEC_LOCK_STEP_END` (R397). A clean run of markers completes step 7 and the port enters SEAM. -/
  | fecLockStepEnd (p : Nat)
  /-- `TRAINING_STEP_TIMEOUT` (R398). A training step passes its limit; training retries at a lower rate or ends in
  TRAINING_FAIL. -/
  | trainingStepTimeout (p : Nat)
  /-- `RDATA` (R260). A read-data beat arrives on a host channel, is checked and delivered to the read that tagged it.
  Operands: TAG with BEAT, the header's check, the beat's words, cycles since the transfer. -/
  | rdata (ch status : Nat) (tag : RsTag) (hdr : Darn) (words : List HostWord) (cycles : Nat)
  /-- `WACK` (R260). A write acknowledgement marks acceptance, after which counters advance and receipts count.
  Operands: The header's check, and that of the counter that the write advances. -/
  | wack (ch status : Nat) (tag : HostTag) (hdr : AckFinds)
  /-- `ADATA` (R260). An atomic's old value arrives from the host die and is returned in a response. -/
  | adata (ch status : Nat) (tag : HostTag) (hdr : Darn) (words : List HostWord)
  /-- `HOST_TRANSACTION_TIMEOUT` (R267). A host transaction unanswered within HC0.TIMEOUT ends with POISON and its tag
  is held back. Operands: The tag, with fabric time. -/
  | hostTransactionTimeout (ch : Nat) (tag : Timed HostTag)
  /-- `MANGLE_UNIT_DONE` (R179). An engine completes a unit and writes its result, or ends it with POISON, then takes
  the next unit in dispatch order. Operands: Whether control state of the unit was lost. -/
  | mangleUnitDone (e : Nat) (bad : Bool)
  /-- `FOLD_START` (R215). The operand table has been read and checked, and the program starts at ENTRY with its
  window armed. Operands: The stream. -/
  | foldStart (st : Nat)
  /-- `FOLD_PUT` (R238). A PUT instruction is issued as a COPY. Operands: The stream, and what the check of the
  fetched instruction finds. -/
  | foldPut (st : Nat) (d : Darn)
  /-- `FOLD_GET` (R238). A GET instruction is issued as a GET command. Operands: The stream, and what the check of the
  fetched instruction finds. -/
  | foldGet (st : Nat) (d : Darn)
  /-- `PUTR` (R238). A PUTR instruction issues REDUCE packets, or a Wring send when WRING is set. Operands: The
  stream, and what the check of the fetched instruction finds. -/
  | putr (st : Nat) (d : Darn)
  /-- `PASS` (R234). A PASS instruction reaches the head and starts read-ahead of LOCAL for the packets it will
  consume. Operands: The stream, and what the check of the fetched instruction finds. -/
  | pass (st : Nat) (d : Darn)
  /-- `PASS_CONSUME` (R234). A staged packet from UP is combined with local data and forwarded or landed. Operands:
  The stream, and the fabric times from which its packet, its local data and its way out were there: it is consumed at
  the latest of them (R250). -/
  | passConsume (st inp loc out : Nat)
  /-- `GATHER_IDX` (R239). A GATHER_IDX reads its index list and issues one LOAD per row. Operands: The stream, and
  what the check of the fetched instruction finds. -/
  | gatherIdx (st : Nat) (d : Darn)
  /-- `FOLD_SIGNAL` (R240). A SIGNAL instruction sends one SIGNAL packet. Operands: The stream, and what the check of
  the fetched instruction finds. -/
  | foldSignal (st : Nat) (d : Darn)
  /-- `WAIT` (R241). A WAIT instruction holds the stream until a local counter reaches its target. Operands: The
  stream, what the check of the fetched instruction finds, and what that of the counter finds. -/
  | wait (st : Nat) (d : Checked Darn)
  /-- `WAIT_SATISFIED` (R241). The counter reaches the WAIT's target and the stream resumes. Operands: The stream,
  what the check of the counter finds, with fabric time (R250). -/
  | waitSatisfied (st : Nat) (d : Timed Darn)
  /-- `FOLD_TICK` (R242). A TICK instruction holds the stream until an edge, or counts an overrun and continues.
  Operands: The stream, and what the check of the fetched instruction finds. -/
  | foldTick (st : Nat) (d : Darn)
  /-- `FOLD_TICK_RELEASE` (R242). The awaited edge arrives and the stream held at its TICK resumes. -/
  | foldTickRelease (st : Nat)
  /-- `FOLD_FENCE` (R243). A FENCE instruction holds the stream until earlier data instructions complete. Operands:
  The stream, and what the check of the fetched instruction finds. -/
  | foldFence (st : Nat) (d : Darn)
  /-- `LOOP` (R244). A LOOP instruction increments its index and jumps back or falls through. Operands: The stream,
  and what the check of the fetched instruction finds. -/
  | loop (st : Nat) (d : Darn)
  /-- `DONE` (R245). A DONE instruction fences, writes the FOLD's completion record and returns the stream to its
  queue. Operands: The stream, and what the check of the fetched instruction finds. -/
  | foldDone (st : Nat) (d : Darn)
  /-- `INSTRUCTION_COMPLETION` (R230). A Fold data instruction completes and adds to the FOLD's totals, stopping the
  program if not OK. Operands: The data instruction, and fabric time (R250). -/
  | instructionCompletion (id now : Nat)
  /-- `FOLD_TIMEOUT` (R241). A WAIT, FENCE or PASS passes the FOLD's timeout at a tick edge and the program stops with
  TIMEOUT. -/
  | foldTimeout (st : Nat)
  /-- `MARKER_CODEWORD` (R341). The receiver takes an E2 marker codeword or E1 marker row, compares FLIT_PTR with its
  tracked flit boundary and, on a mismatch, realigns and marks bad every flit since the previous marker. Operands:
  The levels that came before it on each lane, those of the marker's place, and fabric time. -/
  | markerCodeword (p : Nat) (air mark : Air) (now : Nat)
  /-- `RESERVED_OPCODE_PACKET` (R100). A packet with a reserved header opcode arrives: a request fails step 1 with
  ABSENT reason 0x1, a reserved TC2 opcode is discarded into LATE_COUNT, and a reserved TC0 or TC6 opcode is discarded
  and counted on page 0x7E. -/
  | reservedOpcodePacket (p : Packet)
  /-- `PILOT_MESSAGE_DISCARD` (R385). A pilot message whose CRC fails is discarded and counted in PILOT_ERRORS; one
  with a good CRC and a reserved MTYPE is ignored and counted in PILOT_UNKNOWN. -/
  | pilotMessageDiscard (p : Nat) (m : List PilotBlock)
  /-- `TAG_HOLD_END` (R114). One further timeout period after a TAG was closed by TORN, FLUSHED or TIMEOUT, the TAG
  becomes free for reuse. -/
  | tagHoldEnd (tag : Nat)
  /-- `TICK_MASTER_WAIT_END` (R468). After a block reset, the sealed tick master that has received no TIME from a
  locked peer within 10 ms of its seam checks ending locks from its seal and acts as master. -/
  | tickMasterWaitEnd
  /-- `PORT_POWER_UP_DONE` (R525). Within 2 ms of PORT_POWER.OFF being cleared, the port is powered, POWERED reads 1
  and the port proceeds from DOWN. -/
  | portPowerUpDone (p : Nat)
  /-- `BITSLIP_DONE` (R396). The slips that a BITSLIP write requested have been applied to the lane, and BITSLIP.BUSY
  clears. -/
  | bitslipDone (p : Nat)
  deriving DecidableEq, Repr

end Sys2Proof
end

