-- ==== Sys2Proof/Decode.lean ====
section
/-!
DEFINITION. Commands spelled as words: no row of spec/opcode_table.json gives bits, so no word spells a command.
-/

namespace Sys2Proof

/-- The command that the word `w` of `nbits` bits spells by the table: none, since no row has bits (DEDUCED, log entry 2). -/
def decodeTableWord (_nbits _w : Nat) : Option Instr := none

end Sys2Proof
end

