-- ==== Sys2Proof/Config.lean ====
section
/-!
DEFINITION. What the spec leaves open and the model leaves free: opaque constants with no body, so that no proof can
lean on a value of them. Each is named in the assumption log.
-/

namespace Sys2Proof.Config

/-- The block's own 16-bit keyed function F(root, source chip, source context) (R58): not disclosed. Log entry 4. -/
opaque keyF : Word → Nat → Nat → BitVec 16

/-- The draw number `k` of a generator restarted from a seed (R197): not disclosed. Log entry 5. -/
opaque draw : Word → Nat → BitVec 16

/-- A fresh value that the spec leaves undefined or unstated, by the count of such values used so far. Log entry 7. -/
opaque freeValue : Nat → Word

/-- Tap `t` (PRE2, PRE1, POST1, POST2) of transmit preset TXP`k`, in 1/64 (R390): not disclosed. Log entry 8. -/
opaque txPreset : Nat → Nat → Int

/-- The register that lane L`k`'s sequence of pattern `pat` (0 PRBS13, 1 PRBS31) starts from (R394, R405): not stated. Log entry 70. -/
opaque prbsSeed : Nat → Nat → Nat

/-- The 19 DARN check bits of a 256-bit word with its 8 tag bits above it (Table 0.7, R264): not disclosed. Log entry 61. -/
opaque darnCheck : BitVec 264 → BitVec 19

/-- Colzelis's manufacturer code, as JTAG IDCODE and the I3C provisional ID carry it (R519): not disclosed. Log entry 31. -/
opaque manufacturer : BitVec 11

end Sys2Proof.Config
end

