-- ==== Sys2Proof/Machine/Bits.lean ====
section
/-!
DEFINITION. Bit fields, byte order and sparse tables: the helpers every other file of the machine uses.
A field `[hi:lo]` includes both ends (R12); multi-byte structures are little-endian (R13).
-/

namespace Sys2Proof.Machine

/-- Bits `[hi:lo]` of a natural number (R12). -/
def bits (n hi lo : Nat) : Nat := n / 2 ^ lo % 2 ^ (hi + 1 - lo)

/-- Bit `i` of a natural number. -/
def bitN (n i : Nat) : Bool := n / 2 ^ i % 2 == 1

/-- Bits `[hi:lo]` of a word, as a number (R12). -/
def fld {w : Nat} (v : BitVec w) (hi lo : Nat) : Nat := bits v.toNat hi lo

/-- Bit `i` of a word. -/
def bit {w : Nat} (v : BitVec w) (i : Nat) : Bool := v.getLsbD i

/-- A number as a 64-bit word, cut at 64 bits. -/
def word (n : Nat) : Word := BitVec.ofNat 64 n

/-- A truth value as the number 1 or 0. -/
def b2n (b : Bool) : Nat := if b then 1 else 0

/-- The word `v` with bits `[hi:lo]` replaced by `x`, cut at the field's width. -/
def setFld {w : Nat} (v : BitVec w) (hi lo x : Nat) : BitVec w :=
  BitVec.ofNat w (v.toNat / 2 ^ (hi + 1) * 2 ^ (hi + 1) + x % 2 ^ (hi + 1 - lo) * 2 ^ lo + v.toNat % 2 ^ lo)

/-- The word `v` with bit `i` replaced. -/
def setBit {w : Nat} (v : BitVec w) (i : Nat) (b : Bool) : BitVec w := setFld v i i (b2n b)

/-- `x` placed at bit `lo`, cut at `width` bits: one field of a word being built. -/
def put (x width lo : Nat) : Nat := x % 2 ^ width * 2 ^ lo

/-- Bytes of a number, least significant first (R13). -/
def toBytes : Nat → Nat → List Byte
  | 0, _ => []
  | k + 1, n => BitVec.ofNat 8 n :: toBytes k (n / 256)

/-- The number a run of bytes spells, least significant first (R13). -/
def ofBytes : List Byte → Nat
  | [] => 0
  | b :: bs => b.toNat + 256 * ofBytes bs

/-- The 16 bytes of a slot (R13). -/
def slotBytes (x : Slot) : List Byte := toBytes 16 x.toNat

/-- The bytes of a run of slots. -/
def slotsBytes : List Slot → List Byte
  | [] => []
  | x :: xs => slotBytes x ++ slotsBytes xs

/-- A list cut into groups of `k`, by fuel `n` (at least the number of groups). -/
def chunks {α : Type} (k : Nat) : Nat → List α → List (List α)
  | 0, _ => []
  | n + 1, xs => if xs.isEmpty then [] else xs.take k :: chunks k n (xs.drop k)

/-- Bytes packed into 16-byte slots, the last one filled with zeros. -/
def bytesSlots (bs : List Byte) : List Slot :=
  (chunks 16 (bs.length + 1) bs).map fun g => BitVec.ofNat 128 (ofBytes g)

/-- The bytes of a run of 64-bit words (R13). -/
def wordsBytes : List Word → List Byte
  | [] => []
  | x :: xs => toBytes 8 x.toNat ++ wordsBytes xs

/-- The `n` bytes of `bs` that begin at `off`. -/
def slice {α : Type} (bs : List α) (off n : Nat) : List α := (bs.drop off).take n

/-- A two's complement number of `w` bits. -/
def signed (w n : Nat) : Int := if n % 2 ^ w < 2 ^ (w - 1) then (n % 2 ^ w : Nat) else (n % 2 ^ w : Nat) - 2 ^ w

/-- Number of bits set among the low `w` bits. -/
def popCount : Nat → Nat → Nat
  | 0, _ => 0
  | w + 1, n => n % 2 + popCount w (n / 2)

/-- Position of the highest set bit plus one; 0 for 0. -/
def bitLen : Nat → Nat → Nat
  | 0, _ => 0
  | w + 1, n => if n == 0 then 0 else 1 + bitLen w (n / 2)

/-- Smallest index below `n` that satisfies `p`. -/
def findIdx (n : Nat) (p : Nat → Bool) : Option Nat := (List.range n).find? p

/-- `a - b` modulo `2^w`: how far a modular count has moved (§0.6). -/
def subMod (w a b : Nat) : Nat := (a % 2 ^ w + 2 ^ w - b % 2 ^ w) % 2 ^ w

/-- A bitwise test that every bit of `a` is also in `b`. -/
def subsetBits (a b : Nat) : Bool := a &&& b == a

/-! ### Checks of bytes -/

/-- One bit of a CRC register that shifts right over a reflected polynomial. -/
def crcBit (poly c : Nat) : Nat := if c % 2 == 1 then (c / 2) ^^^ poly else c / 2

/-- One byte, least significant bit first. -/
def crcByte (poly c : Nat) (x : Byte) : Nat :=
  let c := c ^^^ x.toNat
  crcBit poly (crcBit poly (crcBit poly (crcBit poly (crcBit poly (crcBit poly (crcBit poly (crcBit poly c)))))))

/-- The IEEE 802.3 CRC-32 of R331, its polynomial 0x04C1_1DB7 written reflected. -/
def crc32 (xs : List Byte) : Nat := (xs.foldl (crcByte 0xEDB88320) 0xFFFFFFFF) ^^^ 0xFFFFFFFF

/-! ### Sparse tables in one canonical form: keys strictly rising, no entry equal to the default. -/

/-- A sparse table: (key, value) pairs. -/
abbrev Tbl (α : Type) := List (Nat × α)

/-- The entry of a key; the default where none is listed. -/
def Tbl.get {α : Type} (d : α) : Tbl α → Nat → α
  | [], _ => d
  | (j, x) :: t, k => if j == k then x else Tbl.get d t k

/-- A key taken out of a table. -/
def Tbl.erase {α : Type} : Tbl α → Nat → Tbl α
  | [], _ => []
  | (j, x) :: t, k => if j == k then Tbl.erase t k else (j, x) :: Tbl.erase t k

/-- A key's entry placed where the rising order wants it. -/
def Tbl.insert {α : Type} : Tbl α → Nat → α → Tbl α
  | [], k, v => [(k, v)]
  | (j, x) :: t, k, v =>
    if k < j then (k, v) :: (j, x) :: t
    else if j == k then (k, v) :: t
    else (j, x) :: Tbl.insert t k v

/-- A write to a sparse table whose unlisted keys read as `d`. -/
def Tbl.set {α : Type} [DecidableEq α] (d : α) (t : Tbl α) (k : Nat) (v : α) : Tbl α :=
  if v = d then Tbl.erase t k else Tbl.insert t k v

/-- Every listed value changed by `f`; entries that come to equal the default leave the list. -/
def Tbl.remap {α : Type} [DecidableEq α] (d : Nat → α) (f : Nat → α → α) : Tbl α → Tbl α
  | [] => []
  | (j, x) :: t => if f j x = d j then Tbl.remap d f t else (j, f j x) :: Tbl.remap d f t

/-- Whether every key of `t` is at least `k`, the keys rise strictly and no entry equals its default. -/
def Tbl.wfFrom {α : Type} [DecidableEq α] (d : Nat → α) : Nat → Tbl α → Bool
  | _, [] => true
  | k, (j, x) :: t => decide (k ≤ j) && decide (x ≠ d j) && Tbl.wfFrom d (j + 1) t

/-- The canonical form of a sparse table whose unlisted keys read as `d key`. -/
def Tbl.wf {α : Type} [DecidableEq α] (d : Nat → α) (t : Tbl α) : Bool := Tbl.wfFrom d 0 t

/-- The `i`-th element of a list, or the default. -/
def nth {α : Type} (d : α) (xs : List α) (i : Nat) : α := xs.getD i d

/-- A list with its `i`-th element changed by `f`. -/
def modNth {α : Type} (xs : List α) (i : Nat) (f : α → α) : List α := xs.modify i f

end Sys2Proof.Machine
end

