-- ==== Sys2Proof/Machine/Arith.lean ====
section
/-!
DEFINITION. The arithmetic of the Mangle engines (chapter 5): element formats, rounding, MX blocks and segments,
reduce units and Wring units, all computed exactly over integers and then narrowed.
-/

namespace Sys2Proof.Machine

/-- A floating value: NaN, an infinity, or `m · 2^e` with a sign. -/
inductive Num where
  | nan
  | inf (neg : Bool)
  | fin (neg : Bool) (m : Nat) (e : Int)
  deriving DecidableEq, Repr

/-- How a format spells infinities and NaNs (Table 5.4). -/
inductive Specials where
  | ieee | e4m3 | none
  deriving DecidableEq, Repr

/-- The element layout of a floating format (Table 5.4). -/
structure FFmt where
  width : Nat
  ebits : Nat
  fbits : Nat
  bias : Nat
  sp : Specials
  /-- Largest finite magnitude, as an encoding without its sign. -/
  maxBits : Nat
  /-- The NaN the engines write. -/
  nanBits : Nat
  deriving DecidableEq, Repr

/-- The element layouts of the floating codes, the MX codes by their elements (Table 5.4, R182). -/
def fmtOf : Nat → FFmt
  | 0x1 => ⟨16, 5, 10, 15, .ieee, 0x7BFF, 0x7E00⟩
  | 0x2 => ⟨16, 8, 7, 127, .ieee, 0x7F7F, 0x7FC0⟩
  | 0x3 | 0x5 => ⟨8, 4, 3, 7, .e4m3, 0x7E, 0x7F⟩
  | 0x4 | 0x6 => ⟨8, 5, 2, 15, .ieee, 0x7B, 0x7E⟩
  | 0x7 => ⟨6, 2, 3, 1, .none, 0x1F, 0x1F⟩
  | 0x8 => ⟨6, 3, 2, 3, .none, 0x1F, 0x1F⟩
  | 0x9 => ⟨4, 2, 1, 1, .none, 0x7, 0x7⟩
  | _ => ⟨32, 8, 23, 127, .ieee, 0x7F7F_FFFF, 0x7FC0_0000⟩

/-- Codes 0x5 to 0x9 (R182). -/
def isMX (c : Nat) : Bool := decide (5 ≤ c) && decide (c ≤ 9)

/-- Codes 0xA to 0xC (R182). -/
def isInt (c : Nat) : Bool := decide (0xA ≤ c) && decide (c ≤ 0xC)

/-- Element width in bits of any format code (Table 5.4). -/
def fmtWidth (c : Nat) : Nat :=
  if c == 0xA then 32 else if c == 0xB then 8 else if c == 0xC then 64 else (fmtOf c).width

/-- The value an encoding stands for (Table 5.4). -/
def decodeF (f : FFmt) (b : Nat) : Num :=
  let neg := bitN b (f.width - 1)
  let ex := bits b (f.width - 2) f.fbits
  let fr := b % 2 ^ f.fbits
  let top := 2 ^ f.ebits - 1
  if f.sp == .ieee && ex == top then (if fr == 0 then .inf neg else .nan)
  else if f.sp == .e4m3 && ex == top && fr == 2 ^ f.fbits - 1 then .nan
  else if ex == 0 then .fin neg fr (1 - f.bias - f.fbits : Int)
  else .fin neg (fr + 2 ^ f.fbits) (ex - f.bias - f.fbits : Int)

/-- The magnitude `m · 2^e` as a numerator over `2^s` for a chosen `s`. -/
def scaleTo (m : Nat) (e : Int) (s : Nat) : Nat :=
  if 0 ≤ e + s then m * 2 ^ (e + s).toNat else m / 2 ^ (-(e + s)).toNat

/-- Whether `a · 2^i < b · 2^j`. -/
def ltMag (a : Nat) (i : Int) (b : Nat) (j : Int) : Bool :=
  if i ≤ j then decide (a < b * 2 ^ (j - i).toNat) else decide (a * 2 ^ (i - j).toNat < b)

/-- A magnitude cut at the unit in the last place of a format (R195, R196): the multiple of `2^u` at or below it,
`u`, the remainder and the remainder's modulus. -/
structure Cut where
  n : Nat
  u : Int
  rem : Nat
  den : Nat
  deriving DecidableEq, Repr

/-- Truncation towards zero to a format's unit in the last place, the subnormal unit below the normal range (R196). -/
def cutF (f : FFmt) (m : Nat) (e : Int) : Cut :=
  let top : Int := e + (bitLen 2048 m : Int) - 1
  let emin : Int := 1 - f.bias
  let u := (if top < emin then emin else top) - f.fbits
  if u ≤ e then ⟨m * 2 ^ (e - u).toNat, u, 0, 1⟩
  else ⟨m / 2 ^ (u - e).toNat, u, m % 2 ^ (u - e).toNat, 2 ^ (u - e).toNat⟩

/-- The encoding, without its sign, of `n · 2^u` in a format. -/
def encodeMag (f : FFmt) (n : Nat) (u : Int) : Nat :=
  ((u + f.fbits + f.bias - 1) * 2 ^ f.fbits + n).toNat

/-- What rounding one value gave: its encoding, whether it counts in OVERFLOW or NAN_OUT, whether it took a draw. -/
structure Rounded where
  bits : Nat
  overs : Bool := false
  nan : Bool := false
  drew : Bool := false
  deriving DecidableEq, Repr

/-- The sign bit of a format. -/
def signOf (f : FFmt) (neg : Bool) : Nat := if neg then 2 ^ (f.width - 1) else 0

/-- The delivery of a magnitude at or past the threshold of Table 5.8: saturated, infinite, or E4M3's NaN. -/
def overflowBits (f : FFmt) (sat neg : Bool) : Nat :=
  if sat then signOf f neg + f.maxBits
  else match f.sp with
    | .ieee => signOf f neg + (2 ^ f.ebits - 1) * 2 ^ f.fbits
    | .e4m3 => f.nanBits
    | .none => signOf f neg + f.maxBits

/-- Rounding to a format: to nearest, ties to even, or stochastically with draw `r` (R195, R196, Table 5.8). -/
def roundF (f : FFmt) (stoch sat : Bool) (r : Nat) : Num → Rounded
  | .nan => { bits := f.nanBits, nan := true }
  | .inf neg => { bits := overflowBits f sat neg, overs := true }
  | .fin neg m e =>
    let c := cutF f m e
    let mx := cutF f (f.maxBits % 2 ^ f.fbits + (if f.maxBits < 2 ^ f.fbits then 0 else 2 ^ f.fbits))
      ((f.maxBits / 2 ^ f.fbits : Nat) - f.bias - f.fbits : Int)
    let up :=
      if c.rem == 0 then false
      else if stoch then decide (65536 ≤ c.rem * 65536 / c.den + r)
      else decide (c.den < 2 * c.rem) || (2 * c.rem == c.den && c.n % 2 == 1)
    let n := if up then c.n + 1 else c.n
    let overs :=
      if stoch then ltMag mx.n mx.u n c.u
      else !(ltMag m e (2 * mx.n + 1) (mx.u - 1))
    if m == 0 then { bits := signOf f neg }
    else { bits := if overs then overflowBits f sat neg else signOf f neg + encodeMag f n c.u,
           overs := overs, drew := stoch && c.rem != 0 }

/-- The value after rounding to binary32 to nearest, ties to even (R193, R194). -/
def toB32 (x : Num) : Num := decodeF (fmtOf 0) (roundF (fmtOf 0) false false 0 x).bits

/-- The signed numerator of a finite value over a common exponent. -/
def numerator (neg : Bool) (m : Nat) (e lo : Int) : Int :=
  let k : Int := (m * 2 ^ (e - lo).toNat : Nat)
  if neg then -k else k

/-- Exact sum (R194); +0 + −0 is +0, and an exact cancellation is +0 (Table 5.8). -/
def addN : Num → Num → Num
  | .nan, _ | _, .nan => .nan
  | .inf a, .inf b => if a == b then .inf a else .nan
  | .inf a, _ => .inf a
  | _, .inf b => .inf b
  | .fin a m e, .fin b n k =>
    let lo := if e ≤ k then e else k
    let s := numerator a m e lo + numerator b n k lo
    if s = 0 then .fin (a && b) 0 lo else .fin (decide (s < 0)) s.natAbs lo

/-- Exact product (R194); 0 × ∞ is NaN (Table 5.8). -/
def mulN : Num → Num → Num
  | .nan, _ | _, .nan => .nan
  | .inf a, .inf b => .inf (a != b)
  | .inf a, .fin b n _ => if n == 0 then .nan else .inf (a != b)
  | .fin a m _, .inf b => if m == 0 then .nan else .inf (a != b)
  | .fin a m e, .fin b n k => .fin (a != b) (m * n) (e + k)

/-- Magnitude comparison, infinities above every finite value. -/
def magLt : Num → Num → Bool
  | .fin _ m e, .fin _ n k => ltMag m e n k
  | .fin .., .inf _ => true
  | _, _ => false

/-- The sign of a value. -/
def negN : Num → Bool
  | .nan => false
  | .inf n => n
  | .fin n _ _ => n

/-- Whether the first value orders below the second; −0 below +0 (Table 5.8). -/
def ltN (a b : Num) : Bool :=
  match negN a, negN b with
  | true, false => true
  | false, true => false
  | false, false => magLt a b
  | true, true => magLt b a

/-- MAX, MIN and MAXABS of two values (Table 5.7, Table 5.8). -/
def pickN (op : Nat) (w m : Num) : Num :=
  if w = .nan || m = .nan then .nan
  else if op == 3 then (if ltN w m then m else w)
  else if op == 4 then (if ltN m w then m else w)
  else if magLt w m then m else if magLt m w then w else if negN w then m else w

/-- The binary32 result of a floating operation on widened operands (R193, R194). -/
def floatOp (op : Nat) (a b w m : Num) : Num :=
  if op == 0 then w
  else if op == 1 then toB32 (addN w m)
  else if op == 2 then toB32 (addN (toB32 (mulN a w)) (toB32 (mulN b m)))
  else pickN op w m

/-- An integer operation in a format's width: result bits, and whether an exact SUM lay outside the range (R199). -/
def intOp (op fmt : Nat) (sat : Bool) (w m : Nat) : Rounded :=
  let k := fmtWidth fmt
  let sgn := fmt != 0xC
  let val (x : Nat) : Int := if sgn then signed k x else (x % 2 ^ k : Nat)
  let lo : Int := if sgn then -(2 ^ (k - 1) : Nat) else 0
  let hi : Int := if sgn then (2 ^ (k - 1) : Nat) - 1 else (2 ^ k : Nat) - 1
  let enc (z : Int) : Nat := (z % (2 ^ k : Nat)).toNat
  if op == 1 then
    let s := val w + val m
    let out := decide (s < lo) || decide (hi < s)
    { bits := if out && sat then enc (if s < lo then lo else hi) else enc s, overs := out }
  else if op == 3 then { bits := if val w < val m then m else w }
  else if op == 4 then { bits := if val m < val w then m else w }
  else if op == 5 then
    { bits := if (val w).natAbs < (val m).natAbs then m
              else if (val m).natAbs < (val w).natAbs then w
              else if val w < 0 then m else w }
  else if op == 6 then { bits := w &&& m }
  else if op == 7 then { bits := w ||| m }
  else if op == 8 then { bits := w ^^^ m }
  else { bits := w }

/-! ### Element runs and MX segments (R183 to R185) -/

/-- A run of bytes as little-endian elements of `w` bits. -/
def elems (w : Nat) (bs : List Byte) : List Nat :=
  if w == 0 then [] else
  let n := ofBytes bs
  (List.range (bs.length * 8 / w)).map fun i => n / 2 ^ (w * i) % 2 ^ w

/-- Elements of `w` bits packed into bytes. -/
def packElems (w : Nat) (xs : List Nat) : List Byte :=
  toBytes (xs.length * w / 8) (xs.foldr (fun x a => x % 2 ^ w + 2 ^ w * a) 0)

/-- Element bytes per MX block (R184). -/
def mxBlockBytes (c : Nat) : Nat := 4 * fmtWidth c

/-- Blocks per padding granule (R184): 2, 8 or 4 for 8-, 6- and 4-bit elements. -/
def mxGranule (c : Nat) : Nat := if fmtWidth c == 8 then 2 else if fmtWidth c == 6 then 8 else 4

/-- One MX block: its scale byte and its 32 elements' encodings. -/
structure MXBlock where
  scale : Nat
  els : List Nat
  deriving DecidableEq, Repr

/-- Whether a block has the form of an absent block (R185). -/
def MXBlock.absent (c : Nat) (b : MXBlock) : Bool :=
  b.scale == 0xFF && b.els.all fun x => x == 2 ^ fmtWidth c - 1

/-- The blocks a segment carries: its positions less the trailing absent blocks of the last padding granule (R185). R184 gives a segment
up to 64 blocks; of a packet with more positions, the scales past the scale unit are read from the bytes that follow it (DESIGN CHOICE,
log entry 74). -/
def segBlocks (c : Nat) (bs : List Byte) : List MXBlock :=
  let bb := mxBlockBytes c
  let k := (bs.length - 64) / bb
  let all := (List.range k).map fun i =>
    { scale := (bs.getD i 0).toNat, els := elems (fmtWidth c) (slice bs (64 + bb * i) bb) : MXBlock }
  let tail := (all.reverse.take (mxGranule c)).takeWhile (MXBlock.absent c)
  all.take (k - tail.length)

/-- A segment built from blocks (R184, R185). From more than 64 blocks, the scale unit keeps the first 64 scales and all element bytes
follow (DESIGN CHOICE, log entry 74). -/
def segBytes (c : Nat) (blks : List MXBlock) : List Byte :=
  let g := mxGranule c
  let total := (blks.length + g - 1) / g * g
  let scales := (blks.map fun b => BitVec.ofNat 8 b.scale) ++ List.replicate (total - blks.length) (0xFF : Byte)
  (scales ++ List.replicate (64 - total) (0 : Byte)).take 64
    ++ (blks.map fun b => packElems (fmtWidth c) b.els).flatten
    ++ List.replicate ((total - blks.length) * mxBlockBytes c) (0xFF : Byte)

/-- An MX element decoded: its value times 2^(scale − 127), rounded to binary32 (R193, R202). -/
def mxValue (c scale x : Nat) : Num :=
  if scale == 0xFF then .nan
  else match decodeF (fmtOf c) x with
    | .fin n m e => toB32 (.fin n m (e + scale - 127))
    | y => y

/-- Floating elements of a run, widened to binary32 values (R193). -/
def widen (c : Nat) (bs : List Byte) : List Num :=
  if isMX c then ((segBlocks c bs).map fun b => b.els.map (mxValue c b.scale)).flatten
  else (elems (fmtWidth c) bs).map (decodeF (fmtOf c))

/-- A rounding mode with its source of draws (R195 to R197). -/
structure Mode where
  stoch : Bool
  sat : Bool
  /-- RNG_TEST.VALUE while RNG_TEST.ENABLE is 1. -/
  fixed : Option Nat
  seed : Word
  /-- Draws already taken since the generator restarted. -/
  pos : Nat
  deriving DecidableEq, Repr

/-- The draw that the next stochastic rounding takes (R197). -/
def Mode.next (m : Mode) : Nat :=
  match m.fixed with
  | some v => v
  | none => (Config.draw m.seed m.pos).toNat

/-- What a run of roundings has yielded so far. -/
structure Run where
  mode : Mode
  outs : List Nat := []
  overs : Nat := 0
  nan : Nat := 0
  deriving DecidableEq, Repr

/-- One more result added to a run; a draw taken moves the generator on, one that RNG_TEST fixes too (R197; DESIGN CHOICE, log
entry 74). -/
def Run.add (r : Run) (x : Rounded) : Run :=
  { mode := if x.drew then { r.mode with pos := r.mode.pos + 1 } else r.mode,
    outs := r.outs ++ [x.bits], overs := r.overs + b2n x.overs, nan := r.nan + b2n (x.nan && !x.overs) }

/-- Values rounded one after another, in lane order (R197). -/
def roundAll (f : FFmt) (xs : List Num) (m : Mode) : Run :=
  xs.foldl (fun r x => r.add (roundF f r.mode.stoch r.mode.sat r.mode.next x)) { mode := m }

/-- emax of an MX element format (R201). -/
def mxEmax (c : Nat) : Int := if c == 5 then 8 else if c == 6 then 15 else if c == 8 then 4 else 2

/-- ⌊log₂⌋ of a finite non-zero magnitude. -/
def log2N : Num → Option Int
  | .fin _ m e => if m == 0 then none else some (e + (bitLen 2048 m : Int) - 1)
  | _ => none

/-- One block of 32 values encoded (R201), with the run of its roundings. -/
def mxEncode (c : Nat) (xs : List Num) (m : Mode) : MXBlock × Run :=
  if xs.any fun x => x = .nan || x = .inf false || x = .inf true then
    ({ scale := 0xFF, els := xs.map fun _ => 0 },
     { mode := m, overs := (xs.filter fun x => x = .inf false || x = .inf true).length,
       nan := (xs.filter fun x => x = .nan).length })
  else
    let top := (xs.filterMap log2N).foldl (fun (a : Option Int) x =>
      match a with | none => some x | some y => some (if y < x then x else y)) none
    let e : Int := match top with
      | none => 0
      | some t => let d := t - mxEmax c; if d < -127 then -127 else if 127 < d then 127 else d
    let r := roundAll (fmtOf c) (xs.map fun x => match x with | .fin n k j => .fin n k (j - e) | y => y)
      { m with sat := true }
    ({ scale := (e + 127).toNat, els := r.outs }, { r with mode := { r.mode with sat := m.sat } })

/-- Values encoded as an MX segment (R184, R201). -/
def mxEncodeAll (c : Nat) (xs : List Num) (m : Mode) : List Byte × Run :=
  let step := fun (acc : List MXBlock × Run) (g : List Num) =>
    let (b, r) := mxEncode c g acc.2.mode
    (acc.1 ++ [b], { mode := r.mode, overs := acc.2.overs + r.overs, nan := acc.2.nan + r.nan : Run })
  let (bl, r) := (chunks 32 (xs.length + 1) xs).foldl step ([], { mode := m })
  (segBytes c bl, r)

/-! ### Reduce profiles and units (§5.1, §5.3) -/

/-- The fields of a reduce profile (Tables 5.5, 5.6). -/
structure Profile where
  valid : Bool
  op : Nat
  wire : Nat
  mem : Nat
  out : Nat
  round : Bool
  sat : Bool
  shared : Bool
  owner : Nat
  stream : Nat
  a : Nat
  b : Nat
  deriving DecidableEq, Repr

/-- A profile's fields from its two registers (Tables 5.5, 5.6). -/
def profileOf (v ab : Nat) : Profile :=
  { valid := bitN v 63, op := bits v 62 59, wire := bits v 58 55, mem := bits v 54 51, out := bits v 50 47,
    round := bitN v 46, sat := bitN v 45, shared := bitN v 44, owner := bits v 43 32, stream := bits v 31 24,
    a := bits ab 63 32, b := bits ab 31 0 }

/-- Whether Table 5.7 allows an operation for a format. -/
def opAllowed (op c : Nat) : Bool :=
  if isInt c then (if c == 0xC then op != 2 && op != 5 && decide (op ≤ 8) else op != 2 && decide (op ≤ 8))
  else decide (op ≤ 5)

/-- Whether R188 refuses a profile that sets VALID. -/
def profileRefused (p : Profile) : Bool :=
  decide (8 < p.op) || decide (0xC < p.wire) || decide (0xC < p.mem)
  || !(opAllowed p.op p.wire) || !(opAllowed p.op p.mem)
  || (isInt p.wire != isInt p.mem) || (isInt p.wire && p.wire != p.mem)
  || (!(isMX p.wire) && fmtWidth p.wire != fmtWidth p.mem)
  || (isMX p.mem && (p.op != 0 || p.wire != p.mem))
  || (p.out != 0xF && (!(isMX p.out) || isInt p.mem))

/-- Bytes of host memory a REDUCE spans under a profile (§5.3). -/
def reduceSpan (p : Profile) (wireBytes : List Byte) : Nat :=
  if p.valid && isMX p.wire && !(isMX p.mem) then
    32 * (segBlocks p.wire wireBytes).length * (fmtWidth p.mem / 8)
  else wireBytes.length

/-- The result of a unit: landed bytes, forwarded bytes (PASS), and the run's counts. -/
structure UnitOut where
  landed : List Byte
  sent : List Byte := []
  overs : Nat := 0
  nan : Nat := 0
  pos : Nat := 0
  cycles : Nat := 0
  deriving DecidableEq, Repr

/-- Element lanes per cycle by the wider operand's element width (Table 5.2). -/
def lanesOf (w : Nat) : Nat :=
  if w ≤ 4 then 256 else if w ≤ 8 then 128 else if w ≤ 16 then 64 else if w ≤ 32 then 32 else 16

/-- Cycles of a unit of `e` elements (R179). -/
def unitCycles (e w : Nat) (mxOut : Bool) : Nat :=
  (e + lanesOf w - 1) / lanesOf w * (if mxOut then 2 else 1)

/-- A pairwise operation over two runs, the shorter one ending it. -/
def zipRun (f : Mode → Nat → Nat → Rounded) : List Nat → List Nat → Run → Run
  | x :: xs, y :: ys, r => zipRun f xs ys (r.add (f r.mode x y))
  | _, _, r => r

/-- A reducing-store or PASS unit (R177, R194, R195, R199): `pass` forwards a result in OUT_FMT, else it lands one in
MEM_FMT. `w` is the arriving data, `m` the local data. -/
def reduceUnit (p : Profile) (md : Mode) (pass : Bool) (w m : List Byte) : UnitOut :=
  let outFmt := if pass && p.out != 0xF then p.out else p.mem
  let width := if p.op == 0 then fmtWidth p.wire else max (fmtWidth p.wire) (fmtWidth p.mem)
  if isInt p.mem then
    let k := fmtWidth p.mem
    let ws := elems k w
    let ms := if p.op == 0 then ws else elems k m
    let r := zipRun (fun _ x y => intOp p.op p.mem p.sat x y) ws ms { mode := md }
    let o := packElems k r.outs
    { landed := o, sent := o, overs := r.overs, nan := r.nan, pos := r.mode.pos, cycles := unitCycles ws.length width false }
  else if isMX p.mem && outFmt == p.mem then
    let xs := widen p.wire w
    { landed := w, sent := w, pos := md.pos, overs := (xs.filter fun x => x = .inf false || x = .inf true).length,
      nan := (xs.filter fun x => x = .nan).length,
      cycles := unitCycles (32 * (segBlocks p.wire w).length) width pass }
  else
    let ws := widen p.wire w
    let ms := if p.op == 0 then ws else widen p.mem m
    let a := decodeF (fmtOf 0) p.a
    let b := decodeF (fmtOf 0) p.b
    let xs := (ws.zip ms).map fun (x, y) => floatOp p.op a b x y
    if isMX outFmt then
      let (o, r) := mxEncodeAll outFmt xs md
      { landed := o, sent := o, overs := r.overs, nan := r.nan, pos := r.mode.pos, cycles := unitCycles ws.length width true }
    else
      let r := roundAll (fmtOf outFmt) xs md
      let o := packElems (fmtWidth outFmt) r.outs
      { landed := o, sent := o, overs := r.overs, nan := r.nan, pos := r.mode.pos,
        cycles := unitCycles ws.length width false }

/-- A Wring unit's result (R206): the segment, the new residual, the blocks sent as NaN. -/
structure WringOut where
  segment : List Byte
  residual : List Byte
  nonfinite : Nat
  overs : Nat := 0
  nan : Nat := 0
  pos : Nat := 0
  cycles : Nat := 0
  deriving DecidableEq, Repr

/-- One block of a Wring unit (R206). -/
def wringBlock (src wire : Nat) (acc : List MXBlock × List Nat × Nat × Run) (g : List (Num × Num)) :
    List MXBlock × List Nat × Nat × Run :=
  let (bl, rs, nf, r) := acc
  let xs := g.map fun (s, q) => toB32 (addN s q)
  let (b, r') := mxEncode wire xs r.mode
  let r2 : Run := { mode := r'.mode, overs := r.overs + r'.overs, nan := r.nan + r'.nan }
  if b.scale == 0xFF then (bl ++ [b], rs ++ g.map (fun _ => 0), nf + 1, r2)
  else
    let new := (xs.zip b.els).map fun (x, q) =>
      let s := mxValue wire b.scale q
      let neg := match s with | .fin n k e => .fin (!n) k e | y => y
      (roundF (fmtOf src) false false 0 (toB32 (addN x neg))).bits
    (bl ++ [b], rs ++ new, nf, r2)

/-- A Wring unit (R204, R206): source and residual in `src`'s format, sent as `wire`. -/
def wringUnit (src wire : Nat) (md : Mode) (s r : List Byte) : WringOut :=
  let xs := widen src s
  let pairs := xs.zip (widen src r)
  let (bl, rs, nf, run) := (chunks 32 (pairs.length + 1) pairs).foldl (wringBlock src wire) ([], [], 0, { mode := md })
  { segment := segBytes wire bl, residual := packElems (fmtWidth src) rs, nonfinite := nf, overs := run.overs,
    nan := run.nan, pos := run.mode.pos, cycles := unitCycles xs.length (fmtWidth src) true }

/-- Units (64 bytes) of a segment that carries `n` blocks (R184). -/
def segUnits (c n : Nat) : Nat :=
  let g := mxGranule c
  1 + (n + g - 1) / g * g * mxBlockBytes c / 64

end Sys2Proof.Machine
end

