-- ==== Sys2Proof/Machine/RegMap.lean ====
section
/-!
DEFINITION. The register window: pages, domains, and for every register of chapters 2 to 15 which bits a
privileged write replaces, which survive a compute-domain reset, which a written 1 clears, and what it resets to.
-/

namespace Sys2Proof.Machine

/-- The reset domain of a page (R22, R534). -/
inductive Domain where
  | link | compute | management
  deriving DecidableEq, Repr

/-- One register, or a run of `n` registers of one form, of a page (R19). A bit in none of the masks is read only;
a write-only bit acts when it is written and is never stored. -/
structure RegDef where
  /-- Byte offset of the first register on its page. -/
  off : Nat
  /-- How many registers of this form follow one another. -/
  n : Nat := 1
  /-- Bits that a privileged write replaces (access RW or RWS). -/
  rw : Nat := 0
  /-- Bits that keep their value through a compute-domain reset (access RWS). -/
  rws : Nat := 0
  /-- Bits that a written 1 clears (access W1C). -/
  w1c : Nat := 0
  /-- Reset value. -/
  rst : Nat := 0
  /-- A saturating counter: COUNT in [47:0], SATURATED in [48]. -/
  cnt : Bool := false
  deriving DecidableEq, Repr

/-- The mask of bits `[hi:lo]`. -/
def mask (hi lo : Nat) : Nat := 2 ^ (hi + 1) - 2 ^ lo

/-- All 64 bits. -/
def allBits : Nat := 2 ^ 64 - 1

/-- A register whose fields are all RW within one mask. -/
def rReg (off rw : Nat) (rst : Nat := 0) (n : Nat := 1) : RegDef := { off, rw, rst, n }

/-- A read-only register. -/
def roReg (off : Nat) (rst : Nat := 0) (n : Nat := 1) : RegDef := { off, rst, n }

/-- A register whose fields are all RWS within one mask. -/
def rwsReg (off rw : Nat) (rst : Nat := 0) (n : Nat := 1) : RegDef := { off, rw, rws := rw, rst, n }

/-- A run of `n` saturating counters. -/
def cReg (off : Nat) (n : Nat := 1) : RegDef := { off, n, cnt := true }

/-- A ring or area base: ENABLE in [63] where `en`, BASE in [51:lo], SIZE in [sz:0]. -/
def areaReg (off : Nat) (en : Bool) (lo sz rst : Nat) : RegDef :=
  rReg off ((if en then mask 63 63 else 0) + mask 51 lo + mask sz 0) rst

/-- The first page of the range a page belongs to; none for an unused page (R534, Table 15.3). -/
def pageKind (p : Nat) : Option Nat :=
  if p ≤ 3 then some p
  else if 0x10 ≤ p && p ≤ 0x15 then some 0x10
  else if 0x18 ≤ p && p ≤ 0x1D then some 0x18
  else if 0x20 ≤ p && p ≤ 0x2B then some 0x20
  else if 0x30 ≤ p && p ≤ 0x3B then some 0x30
  else if 0x41 ≤ p && p ≤ 0x48 then some 0x41
  else if [0x40, 0x50, 0x58, 0x60, 0x70, 0x78, 0x7C, 0x7E, 0x7F].contains p then some p
  else none

/-- The reset domain of a page range (R534, Table 15.3). -/
def kindDomain (k : Nat) : Domain :=
  if [3, 0x10, 0x18, 0x50].contains k then .link
  else if [0x20, 0x30, 0x40, 0x41, 0x58, 0x60, 0x70].contains k then .compute
  else .management

/-- DOMAIN of PAGE_ID (R535, Table 15.4). -/
def Domain.code : Domain → Nat
  | .link => 1
  | .compute => 2
  | .management => 3

/-- The header registers of a page range (R18, R535, R536): PAGE_CONTROL is RWS on host channels,
QUIESCE alone is RW on engines and links, and neither elsewhere. -/
def headerDefs (k : Nat) : List RegDef :=
  [ if k == 0x20 then rwsReg 0x010 3 1
    else if k == 0x30 || k == 0x10 then rReg 0x010 2 1
    else roReg 0x010 1,
    rReg 0x020 allBits ]

/-- HC0.MAP*k*: entry `i` of word `k` is (16k + i) mod 12 (Table 7.13). -/
def mapReset (k : Nat) : Nat :=
  (List.range 16).foldl (fun a i => a + (16 * k + i) % 12 * 16 ^ i) 0

/-- The registers of each page range after its header, in offset order: the register tables of chapters 2 to 15. -/
def kindDefs : Nat → List RegDef
  | 0x00 => -- Table 15.7
    [roReg 0x040 0x0C2E_5C6B_1000_0000, roReg 0x048, roReg 0x050 0x1D0B, rReg 0x058 allBits 1]
  | 0x01 => -- Tables 15.9, 11.3, 11.7, 14.9
    [roReg 0x040, roReg 0x048 allBits, roReg 0x050 0x1C00_0000_FFFF_FFFF 6, roReg 0x080 0x2000_0000_0000_010F,
     roReg 0x800 0x1070_0000_0000_0000, rReg 0x808 (mask 51 12) (mask 63 63), rReg 0x810 (mask 47 0), roReg 0x818,
     rReg 0x820 (mask 61 44) (2 ^ 44), { off := 0x840, rw := mask 63 52, w1c := mask 35 35, rst := 1800 * 2 ^ 52 + 1800 * 2 ^ 40 }, roReg 0x848 (580 * 2 ^ 32),
     rReg 0x850 (mask 5 0) 0x3F00, rReg 0x858 (mask 47 40) (100 * 2 ^ 40 + 110 * 2 ^ 32)]
  | 0x02 => [roReg 0x040, roReg 0x048 4, roReg 0x050] -- Table 15.10
  | 0x03 => -- Table 13.9
    [roReg 0x040, roReg 0x048, rReg 0x050 (mask 20 0) 2048, roReg 0x058 (mask 60 58), rReg 0x060 (mask 63 63),
     rReg 0x068 allBits, rReg 0x070 (mask 31 0), cReg 0x078 3]
  | 0x10 => -- Tables 9.12 to 9.15
    [roReg 0x040, rReg 0x048 (mask 60 58) (mask 60 58), rReg 0x050 (mask 47 8) (64 * 2 ^ 32 + 100 * 2 ^ 16 + 4 * 2 ^ 8),
     rReg 0x058 allBits (10000 * 2 ^ 32 + 2000), areaReg 0x060 true 20 4 26, roReg 0x068 (3971 * 2 ^ 20), roReg 0x070,
     rReg 0x078 (mask 5 0), roReg 0x080, cReg 0x088 12, rReg 0x0E8 allBits 0x0010_1840_4030_2008]
  | 0x18 => -- Tables 10.13 to 10.15
    [roReg 0x040 (mask 59 58), rReg 0x048 (mask 63 60) (mask 63 60),
     rReg 0x050 (mask 63 16) (3104 * 2 ^ 48 + 7744 * 2 ^ 32 + 512 * 2 ^ 16), rReg 0x058 (mask 4 0), roReg 0x060,
     roReg 0x068, roReg 0x070, roReg 0x078 0 2, roReg 0x088 (2 ^ 60), roReg 0x090,
     rReg 0x098 (mask 63 54) (2 ^ 57 + 2 ^ 55), cReg 0x0A0 5, rReg 0x100 allBits 0 40]
  | 0x20 => -- Tables 7.12, 7.13, 7.14
    [roReg 0x040, cReg 0x048 11, rReg 0x0A0 (mask 31 0)]
  | 0x30 => -- Table 5.13
    [roReg 0x040, cReg 0x048 5, roReg 0x070, rReg 0x078 (mask 51 12) (mask 63 63)]
  | 0x40 => -- Tables 3.18 to 3.20, 6.9 to 6.11
    [rReg 0x040 (mask 51 14), rReg 0x048 allBits 0 4, rReg 0x068 (mask 15 0) 50, areaReg 0x070 false 12 3 0,
     rReg 0x078 (mask 15 0), cReg 0x080 3, rReg 0x100 (mask 15 0), areaReg 0x108 true 20 4 26, roReg 0x110,
     cReg 0x118 3, { off := 0x130, w1c := mask 63 63 }, rReg 0x138 (mask 7 0), roReg 0x140 0 4, roReg 0x160 0 4,
     rReg 0x180 (mask 5 0), roReg 0x188, rReg 0x800 (mask 31 0) 0 256]
  | 0x41 => [rReg 0x040 (mask 63 63 + mask 13 0), roReg 0x048, roReg 0x050] -- Table 6.12
  | 0x50 => -- Tables 8.8, 8.9
    [roReg 0x040 0xFF, rReg 0x048 (mask 47 0), roReg 0x050, rReg 0x058 (mask 63 63 + mask 15 0), roReg 0x060,
     rReg 0x068 (mask 11 0), roReg 0x070, areaReg 0x078 true 20 4 28, rReg 0x080 (mask 15 0) (224 * 256 + 192),
     roReg 0x088, roReg 0x090 0 6, { off := 0x0C0, rw := mask 47 32, w1c := mask 5 0, rst := 4096 * 2 ^ 32 },
     cReg 0x0C8 5]
  | 0x58 => -- Tables 2.11 to 2.16
    [rReg 0x040 (mask 63 63 + mask 19 0), roReg 0x048, roReg 0x050 (mask 63 63), rwsReg 0x058 3,
     rwsReg 0x060 (mask 51 21) 0 2, roReg 0x070 allBits, roReg 0x078, roReg 0x080 1,
     rReg 0x088 (mask 43 32 + mask 30 0), roReg 0x090, { off := 0x098, w1c := mask 63 63 }, roReg 0x0A0, cReg 0x0A8 4]
  | 0x60 => -- Tables 4.7 to 4.10
    [rReg 0x040 (mask 63 63 + mask 15 0), roReg 0x048, roReg 0x050, roReg 0x058, rReg 0x060 (mask 9 0), roReg 0x068,
     roReg 0x070 (mask 63 63), rReg 0x078 (mask 51 19), rReg 0x080 allBits 0 16, cReg 0x100 2]
  | 0x70 => -- Table 12.11
    [rReg 0x040 (mask 63 63 + mask 11 0), roReg 0x048, rReg 0x050 (mask 11 0) (mask 63 63),
     rReg 0x058 (mask 63 63 + mask 11 0), roReg 0x060, cReg 0x068]
  | 0x78 => -- Table 12.12
    [roReg 0x040, { off := 0x048, w1c := mask 48 48 }, rReg 0x050 (mask 63 62 + mask 15 0) (mask 63 62 + 64),
     rReg 0x058 allBits (64 * 2 ^ 48 + 100 * 2 ^ 32 + 10 * 2 ^ 16 + 100), areaReg 0x060 true 12 4 21, roReg 0x068,
     cReg 0x070 3, rReg 0x088 (mask 31 16) (100 * 2 ^ 16), cReg 0x090, { off := 0x098, w1c := mask 63 63 }]
  | 0x7C => -- Table 13.10
    [roReg 0x040, rReg 0x048 (mask 6 4 + mask 2 0), areaReg 0x050 false 12 3 0,
     rReg 0x058 (mask 63 63 + mask 47 32 + mask 15 0) (1024 * 2 ^ 32), roReg 0x060 0 5, cReg 0x088 3]
  | 0x7E => -- Tables 13.11, 8.10
    [areaReg 0x040 false 12 3 0, rReg 0x048 (mask 63 48 + mask 15 0), rReg 0x050 allBits 0 4, roReg 0x070, cReg 0x078 2,
     areaReg 0x800 false 12 3 0, rReg 0x808 (mask 55 32 + mask 15 0) (2 ^ 32), rReg 0x810 (mask 63 52 + mask 29 0),
     cReg 0x818, rReg 0x820 (mask 63 62 + mask 14 0), areaReg 0x828 false 12 3 0, rReg 0x830 (mask 63 63 + mask 15 0),
     cReg 0x838]
  | 0x7F => -- Table 13.12
    [areaReg 0x040 true 12 4 21, rReg 0x048 (mask 62 62) (mask 63 63), rReg 0x050 (mask 59 59 + mask 47 0),
     rReg 0x058 (mask 47 0), areaReg 0x060 false 12 3 0, rReg 0x068 (mask 15 0), roReg 0x070, cReg 0x078]
  | _ => []

/-- The shared registers of the first page of a counted range: HC0 from 0x800 (Table 7.13), MANGLE0 from 0x800
(Tables 5.5, 5.6, 5.14, 5.15). -/
def sharedDefs (p : Nat) : List RegDef :=
  if p == 0x20 then
    [rwsReg 0x800 (mask 4 0) 12, rwsReg 0x808 allBits (mapReset 0), rwsReg 0x810 allBits (mapReset 1),
     rwsReg 0x818 allBits (mapReset 2), rwsReg 0x820 allBits (mapReset 3), rwsReg 0x828 1, rwsReg 0x830 (mask 19 0) 100,
     rwsReg 0x838 (mask 63 63 + mask 15 0), roReg 0x840, cReg 0x848]
  else if p == 0x30 then
    [rReg 0x800 (mask 63 24) (0xF * 2 ^ 47) 16, rReg 0x880 allBits 0x3F80_0000_3F80_0000 16, rReg 0x900 (mask 7 0),
     roReg 0x908, rReg 0x910 (mask 63 63 + mask 15 0), cReg 0x918 5]
  else []

/-- The definition that covers a byte offset in a list of definitions. -/
def findDef (ds : List RegDef) (off : Nat) : Option RegDef :=
  ds.find? fun d => decide (d.off ≤ off) && decide (off < d.off + 8 * d.n)

/-- Every definition of a page. -/
def pageDefs (p : Nat) : List RegDef :=
  match pageKind p with
  | none => []
  | some k => headerDefs k ++ kindDefs k ++ sharedDefs p

/-- The register at window word `w` (R531: offset ÷ 8); none for a reserved offset or an unused page. -/
def regDef (w : Nat) : Option RegDef := findDef (pageDefs (w / 512)) (w % 512 * 8)

/-- What a register holds after a cold reset, the fields read from fuses and straps apart. -/
def regDefault (w : Nat) : Word :=
  match regDef w with
  | none => 0
  | some d => word d.rst

/-- Window word of offset `off` on page `p` (R531). -/
def regAt (p off : Nat) : Nat := 512 * p + off / 8

end Sys2Proof.Machine
end

