-- ==== Sys2Proof/Machine/State.lean ====
section
/-!
DEFINITION. The state of the block: every register, table, queue, buffer, timer and mode that the spec gives it, as
plain data, and the queue of commands that wait.
-/

namespace Sys2Proof.Machine

/-! ### Host channels (chapter 7) -/

/-- KIND of a host transaction (Table 7.2). -/
inductive HKind where
  | rd | wr | at8 | at16
  deriving DecidableEq, Repr

/-- What the block does with a host access once every transaction of it is answered. -/
inductive JobKind where
  /-- A record of the compute domain (completion, error, head report, pass spill): nothing follows. -/
  | record
  /-- A record or a spill of the link or management domain, which a compute-domain reset keeps: nothing follows. -/
  | lasting
  /-- A part of a record of a ring, and the parts still to be written, one after the other, the word with PHASE last (R326, R488,
  R491); whether it is a trace record. -/
  | ringPart (trace : Bool) (rest : List (Nat × List Byte))
  /-- Sections of a dump; its header, at `addr`, is written once they are (R471). -/
  | areaBody (addr : Nat) (hdr : List Byte)
  /-- A part of a snapshot's sections (R495, R496). -/
  | snapPart
  /-- The header of a snapshot (R495). -/
  | snapHead
  /-- The stream-table entry of a stream, read under enable number `gen` (R85). -/
  | streamEntry (s gen : Nat)
  /-- One or more descriptors of a stream, the first one numbered `q`, read under enable number `gen` (R87). -/
  | descriptors (s q n gen : Nat)
  /-- Source data of part `part` of packet `pk` of a command (R97, R106). -/
  | source (cmd pk part : Nat)
  /-- Residual data of part `part` of packet `pk` of a WRING (R203). -/
  | residual (cmd pk part : Nat)
  /-- A read of LOCAL ahead of consumption, the piece at byte `at_` of the PASS's range (R236). -/
  | passAhead (cmd at_ : Nat)
  /-- The residual write of a Wring packet (R203). -/
  | residualWrite (cmd : Nat)
  /-- A landing write of an arrived packet (R25). -/
  | land (id : Nat)
  /-- The read of an arrived LOAD (R136). -/
  | load (id : Nat)
  /-- The locked read of an arrived REDUCE (R28). -/
  | reduceRead (id : Nat)
  /-- The host atomic of an arrived atomic (R105). -/
  | atomic (id : Nat)
  /-- A local landing of response data: the command, its LCOUNTER, the bytes, the packet's number (R108, R115). -/
  | localLand (cmd ctr n k : Nat)
  /-- The operand-table read of a Fold program (R231). -/
  | foldArgs (s : Nat)
  /-- The index list of a GATHER_IDX (R239). -/
  | foldIndex (s ins part : Nat)
  /-- The local operand of a PASS packet (R234). -/
  | passRead (cmd pk part : Nat)
  /-- A landing of `n` bytes of the result of packet `k` of a PASS, of `span` bytes; with KEEP the packet is forwarded beside it
  (R235). -/
  | passLand (cmd ctr n span k : Nat) (keep : Bool)
  /-- A pass-spill read (R233). -/
  | passSpill (cmd pk : Nat)
  /-- A mirror write of a counter (R157). -/
  | mirror (ctr : Nat)
  /-- A replay-spill read-back of flit `seq` of a port (R357). -/
  | replayRead (p seq : Nat) (tag : Bool)
  /-- A Hamper-spill read-back (R319). -/
  | hamperRead (pk out : Nat)
  /-- A firmware image's header, then its body (R427). -/
  | fwImage (body : Bool)
  /-- A microcode image's header, then its body (R212). -/
  | ucImage (e : Nat) (body : Bool)
  /-- The header of a dump (R470, R471). -/
  | dump
  deriving DecidableEq, Repr

/-- A host access: a byte range read, written or acted on, made of one or more transactions. -/
structure Job where
  id : Nat
  kind : JobKind
  /-- First byte and length of the access. -/
  addr : Nat
  len : Nat
  /-- Transactions not yet answered. -/
  left : Nat
  /-- Read data by transaction, in address order. -/
  parts : List (Nat × List Byte) := []
  /-- Some answer carried an uncorrectable error (R266). -/
  bad : Bool := false
  deriving DecidableEq, Repr

/-- One host transaction (R257 to R262). -/
structure Txn where
  kind : HKind
  /-- ATTR: 1 uncached (Table 7.5). -/
  unc : Bool
  lock : Bool := false
  unlock : Bool := false
  ctx : Nat
  /-- Host physical address of the first beat. -/
  addr : Nat
  beats : Nat
  aop : Nat := 0
  /-- First byte asked for, how many, and a write's bytes or an atomic's operands. -/
  wstart : Nat := 0
  wlen : Nat := 0
  wdata : List Byte := []
  /-- The channel the map names as it is transferred, the one that carries it, and its tag (R262, R278, R280). -/
  home : Nat := 0
  chan : Nat := 0
  tag : Nat := 0
  job : Nat
  part : Nat
  /-- Transfers of it that the host has taken, and fabric time of the last of them (R256). -/
  taken : Nat := 0
  start : Nat := 0
  /-- Beats received, by BEAT (R260). -/
  got : List (Nat × List Byte) := []
  bad : Bool := false
  /-- A beat carried STATUS POISON or ERROR: the response has been counted (R266). -/
  erred : Bool := false
  /-- Ended by HC0.TIMEOUT: the tag waits for the late response (R267). -/
  dead : Bool := false
  deriving DecidableEq, Repr

/-- The latency record of one channel in the running tick (Table 7.12). -/
structure Lat where
  sum : Nat := 0
  n : Nat := 0
  mean : Nat := 0
  deriving DecidableEq, Repr

/-- One transfer of a channel's request direction (Tables 7.1, 7.2): RQ_FIRST, RQ_LAST, RQ_HDR, RQ_HCHK, RQ_DATA, RQ_DCHK and
RQ_BE. -/
structure RqXfer where
  first : Bool
  last : Bool
  hdr : BitVec 128
  hchk : BitVec 19
  data : BitVec 1024
  dchk : BitVec 108
  be : BitVec 128
  deriving DecidableEq, Repr

/-- A host lock taken by a LOCK read and not yet released (R263, R272): its channel, first byte, length, context, attribute and
tick. -/
structure Lock where
  chan : Nat
  addr : Nat
  len : Nat
  ctx : Nat
  unc : Bool
  tick : Nat
  deriving DecidableEq, Repr

/-- The host side: transactions outstanding, those waiting for a channel, a tag or buffer beats, and their accesses. -/
structure HostSt where
  out : List Txn := []
  waiting : List Txn := []
  jobs : List Job := []
  nextJob : Nat := 0
  /-- Latency record of each channel (Table 7.12). -/
  lat : List Lat := List.replicate 12 {}
  /-- Locks taken and not yet released (R263, R272). -/
  locks : List Lock := []
  /-- The transfers that each channel still offers, of one transaction, and its tag: RQ_VALID is 1 while there is one (R256). -/
  rq : List (List (Nat × RqXfer)) := List.replicate 12 []
  /-- The transfers that the host has taken of the transaction that moved last. -/
  moved : List (List RqXfer) := List.replicate 12 []
  /-- How many more transfers the host takes before it lowers RQ_READY; none while it holds it at 1 (R256). -/
  ready : List (Option Nat) := List.replicate 12 none
  deriving DecidableEq, Repr

/-! ### The transaction engine (chapter 3) -/

/-- A granule's Segment Map entry as a check read it (R63, R97): its index, the entry, what steps 3 to 7 of Table 2.7 found, the host
address of its first byte, and whether a check that failed under it has been counted (R67). -/
structure Granule where
  i : Nat
  entry : Word
  status : Nat
  reason : Nat
  base : Nat
  counted : Bool := false
  deriving DecidableEq, Repr

/-- One packet that a command has still to issue. -/
structure Plan where
  /-- Its number within the command. -/
  k : Nat
  opcode : Nat
  /-- Header bits [61:0], a non-posted packet's TAG apart (Table 3.7). -/
  low : Nat
  /-- Header bits [119:105] (R99, R104), the GEN of a group flow apart. -/
  dst : Nat
  /-- Data bytes (R103), or bytes asked for (LOAD). -/
  n : Nat
  /-- Local source range, as an offset in the issuing chip's window; none for inline data. -/
  src : Option Nat := none
  srcLen : Nat := 0
  /-- Bytes of the data slots as they go out, once known. -/
  data : Option (List Byte) := none
  /-- Reads of the source not yet answered. -/
  reading : Nat := 0
  /-- Whether its reads have been started. -/
  started : Bool := false
  /-- Source bytes by part. -/
  got : List (Nat × List Byte) := []
  /-- Residual bytes by part (WRING). -/
  res : List (Nat × List Byte) := []
  /-- Where its residual goes, checked before the reads (host address, bytes, uncached), and the new residual once its unit is done:
written as the packet leaves (R203, R207, R208). -/
  resAt : List (Nat × Nat × Bool) := []
  resOut : List Byte := []
  /-- An uncorrectable error in its source or residual, or in its Wring unit: it is never sent (Table 3.16). -/
  poison : Bool := false
  /-- One in what a Wring unit has yet to take (R180). -/
  srcBad : Bool := false
  /-- Where response bytes land: local window offset, the first byte wanted and how many. -/
  landAt : Nat := 0
  skip : Nat := 0
  want : Nat := 0
  /-- Where the landing's pieces go, checked before the packet leaves: host address, bytes, uncached (R97). -/
  land : List (Nat × Nat × Bool) := []
  /-- Wire key of the packet. -/
  key : Nat := 0
  deriving DecidableEq, Repr

/-- A posted packet issued and not yet covered (R110, R131). -/
structure Posted where
  cmd : Nat
  /-- Its number within the command. -/
  k : Nat
  peer : Nat
  cls : Nat
  pos : Nat
  n : Nat
  /-- Route epoch it was injected under, for R309, and tick of issue. -/
  epoch : Nat := 0
  tick : Nat := 0
  /-- A note has covered it in the sense of R309. -/
  noted : Bool := false
  deriving DecidableEq, Repr

/-- A TAG in use: its request's command, and where its response lands (R114). -/
structure TagEnt where
  tag : Nat
  cmd : Nat
  opcode : Nat
  peer : Nat
  /-- Its packet's number within the command. -/
  k : Nat := 0
  land : List (Nat × Nat × Bool) := []
  skip : Nat
  want : Nat
  lctr : Nat
  epoch : Nat := 0
  tick : Nat := 0
  deriving DecidableEq, Repr

/-- A TAG closed by TORN, FLUSHED or TIMEOUT, held until a fabric time (R114). -/
structure TagHold where
  tag : Nat
  until_ : Nat
  deriving DecidableEq, Repr

/-- A broken flow (R123): its cause, its FSYNC, and the commands step 4 completes. -/
structure Broken where
  cause : Nat
  /-- The chip whose note broke it, or this chip for a timeout (FAIL_CHIP, Table 3.11). -/
  by_ : Nat
  /-- FSYNCs sent for this break that are not answered: TAG, position, and the epoch it left under; 2 while it is kept back (R309). -/
  fsyncs : List (Nat × Nat × Nat)
  /-- Those of them that a note has covered in the sense of R309, by TAG. -/
  noted : List Nat := []
  /-- How many were sent, and fabric time of the last. -/
  sent : Nat
  sentAt : Nat
  cmds : List Nat
  deriving DecidableEq, Repr

/-- The source side of a flow (R110 to R112). -/
structure Flow where
  peer : Nat
  cls : Nat
  issued : Nat := 0
  covered : Nat := 0
  /-- FSYNCs sent so far: the next one's TAG (log entry 61). -/
  syncs : Nat := 0
  broken : Option Broken := none
  /-- Not yet synced since a compute-domain reset: its receipts are discarded (R466). -/
  fresh : Bool := false
  deriving DecidableEq, Repr

/-- The source side of a group flow (R113). The key is {BCAST, GROUP}. -/
structure GroupFlow where
  key : Nat
  cls : Nat
  gen : Nat := 0
  cmd : Option Nat := none
  /-- Packets issued by the current command, members, receipts' COUNTs received. -/
  issued : Nat := 0
  members : Nat := 0
  count : Nat := 0
  /-- Packets that each member has reported finished: (chip, packets) (R117). -/
  by_ : List (Nat × Nat) := []
  /-- A note met by the current command: 1 TORN, 2 FLUSHED, and the chip that sent it (R124); member-packets that notes have answered
(R309). -/
  noted : Nat := 0
  torn : Nat := 0
  tornBy : Nat := 0
  deriving DecidableEq, Repr

/-- An admitted command that has not completed (R90, R115). -/
structure Cmd where
  id : Nat
  stream : Nat
  ctx : Nat
  qindex : Nat
  /-- The descriptor's words. -/
  desc : List Word
  plans : List Plan := []
  anyIssued : Bool := false
  /-- Packets issued so far (Table 12.7). -/
  issuedN : Nat := 0
  /-- Non-posted requests and local landings outstanding. -/
  tags : Nat := 0
  lands : Nat := 0
  status : Nat := 0
  reason : Nat := 0
  failChip : Nat := 0
  failCount : Nat := 0
  /-- Packets that a receipt reported as failed, or whose local landing failed, by number (R117, R247). -/
  failed : List Nat := []
  bytesOk : Nat := 0
  /-- Fabric time at which its timer started (R127). -/
  timer : Option Nat := none
  timeoutMs : Nat := 50
  /-- Completed by its deadline or by a flow break: what arrives later is late (R128). -/
  ended : Bool := false
  /-- Completed by its own deadline: bytes may still land after its record (Table 3.12). -/
  expired : Bool := false
  /-- The granules of this chip's window that it has touched, each under the entry that its first check read (R97). -/
  granules : List Granule := []
  /-- DESC_TICK: whether its hold has ended (R95); the index held for is 0 for "the next edge". -/
  tickHold : Option Nat := none
  /-- A data instruction of a Fold program (R230): it writes no record and adds to the FOLD's totals. -/
  ofFold : Bool := false
  /-- A PASS: its spans consumed and results issued; completion waits until it is issued (R229). -/
  passOpen : Bool := false
  /-- A GATHER_IDX: rows still to be read from the list, and bytes read of an entry that the next read completes (R239). -/
  rowsLeft : Nat := 0
  listPart : List Byte := []
  /-- A PASS, whose spans count once each (R247); the program counter of a data instruction (R249). -/
  isPass : Bool := false
  pc : Nat := 0
  /-- A FOLD: the chip that first reported each status met by its data instructions (R247). -/
  firsts : List (Nat × Nat) := []
  /-- A group flow's key and class while it holds one (R113). -/
  group : Option (Nat × Nat) := none
  deriving DecidableEq, Repr

/-- A descriptor copied out of a queue: its number and its words; none where its read was uncorrectable. -/
structure Fetched where
  q : Nat
  desc : Option (List Word)
  deriving DecidableEq, Repr

/-- An enable written during a Rinse of `ctx` (Table 12.2): the write it came with, 0 once that write has been counted, and whether the
doorbell has been written since. -/
structure EntryAsk where
  ctx : Nat
  write : Nat
  rung : Bool := false
  deriving DecidableEq, Repr

/-- A stream's command queue (§3.1). -/
structure Stream where
  /-- A 1 written to its enable bit during a Rinse, which waits for the entry to name its context; the context whose Rinse started while
  its entry was being read (Tables 12.1, 12.2). -/
  asking : Option EntryAsk := none
  rinsed : Option Nat := none
  /-- Words of the entry last accepted (R85): commands admitted under it still use it once the stream is disabled (R91). -/
  entry : Option (List Word) := none
  /-- The entry has been accepted since the last enable. -/
  ready : Bool := false
  /-- Counts the enables, so that a read from before is not mistaken for one after. -/
  gen : Nat := 0
  /-- Descriptors read out of the queue, asked for, and records written or reserved (R87, R90). -/
  head : Nat := 0
  asked : Nat := 0
  written : Nat := 0
  reserved : Nat := 0
  /-- Head count of the last head report (R89). -/
  reported : Nat := 0
  fetched : List Fetched := []
  deriving DecidableEq, Repr

/-- The transaction engine. -/
structure ReqSt where
  streams : List Stream := List.replicate 256 {}
  cmds : List Cmd := []
  nextCmd : Nat := 1
  posted : List Posted := []
  flows : List Flow := []
  groups : List GroupFlow := []
  tags : List TagEnt := []
  held : List TagHold := []
  /-- A compute-domain reset has happened: flows not listed start broken (R466). -/
  afterReset : Bool := false
  /-- Error records dropped since the last LOSS record (R129). -/
  errDropped : Nat := 0
  deriving DecidableEq, Repr

/-! ### The destination side (chapters 2 and 4) -/

/-- The outcome of the checks of Table 2.7 on one access: host address and attribute, or status and reason. -/
structure Check where
  status : Nat
  reason : Nat
  haddr : Nat := 0
  unc : Bool := false
  deriving DecidableEq, Repr

/-- A packet that the destination side has taken up and not finished counting. -/
structure DPkt where
  id : Nat
  pkt : Packet
  src : Nat
  ctx : Nat
  cls : Nat
  opcode : Nat
  /-- Group flow key (BCAST, GEN, GROUP bits) of an _MC packet. -/
  mc : Option Nat := none
  ctr : Nat := 0
  bytes : Nat := 0
  status : Nat := 0
  reason : Nat := 0
  haddr : Nat := 0
  unc : Bool := false
  /-- Bytes of the host range it locks or writes. -/
  span : Nat := 0
  /-- It has finished with host memory (or failed), and waits for its turn to be counted. -/
  done : Bool := false
  /-- A reducing store that holds its range (R28), and the pass window's stream of an intercepted packet that waits for room in
  pass staging (R233). -/
  started : Bool := false
  window : Option Nat := none
  /-- Its window offset (R232). -/
  off : Nat := 0
  /-- A landing whose first host write has been issued (R168). -/
  landing : Bool := false
  /-- Profile words latched when the unit was made (R192). -/
  profile : Nat := 0
  profileAB : Nat := 0
  /-- Local data of a reducing store once read. -/
  loc : List Byte := []
  /-- Entry owner, for the Rinse; tick of arrival. -/
  owner : Nat := 0
  tick : Nat := 0
  deriving DecidableEq, Repr

/-- The destination side's count of one flow (R110, R111), or of one group flow from one source (R113). -/
structure DFlow where
  src : Nat
  cls : Nat
  mc : Option Nat := none
  count : Nat := 0
  sent : Nat := 0
  /-- Silent until its first FSYNC after a compute-domain reset (R466). -/
  silent : Bool := false
  deriving DecidableEq, Repr

/-- What a held access is (R28, R147): a taken-up packet that starts once its range is free, or a write of the block's. -/
inductive Waiter where
  | pkt (id : Nat)
  | write (unc : Bool) (ctx : Nat) (data : List Byte) (job : Nat)
  deriving DecidableEq, Repr

/-- The destination side. -/
structure DestSt where
  /-- Packets delivered to this chip and not yet taken up, in arrival order. -/
  inbox : List Packet := []
  /-- Packets taken up and not yet counted, in arrival order (R110, R149). -/
  pkts : List DPkt := []
  /-- Accesses held because their range meets a locked one or an earlier held one (R146, R147): first byte, length, access, in
  order of coming. -/
  waiters : List (Nat × Nat × Waiter) := []
  /-- Number of the next packet taken up; the counts of the flows that end here (R110, R111). -/
  nextId : Nat := 1
  flows : List DFlow := []
  /-- A compute-domain reset has happened: unicast flows not listed are silent (R466). -/
  afterReset : Bool := false
  deriving DecidableEq, Repr

/-! ### Mangle engines (chapter 5) -/

/-- What a Mangle unit serves (R177): an arrived packet, a PASS packet, or an outgoing Wring packet. -/
inductive UnitKind where
  | reduce (id : Nat)
  | pass (cmd pk : Nat)
  | wring (cmd pk : Nat)
  deriving DecidableEq, Repr

/-- A unit in the dispatch order (R181). -/
structure MUnit where
  kind : UnitKind
  profile : Nat := 0
  profileAB : Nat := 0
  /-- Arriving data (or a Wring source) and local data (or a residual). -/
  w : List Byte
  m : List Byte
  /-- Stream whose generator supplies draws (R197), and whether rounding is stochastic (Wring). -/
  stream : Nat
  stoch : Bool := false
  src : Nat := 0
  wire : Nat := 0
  /-- An operand carried an uncorrectable error (R180). -/
  bad : Bool := false
  /-- Tick of its entry into the dispatch order. -/
  tick : Nat := 0
  deriving DecidableEq, Repr

/-- What the engine that holds a unit will write when the unit is done. -/
structure Held where
  unit : MUnit
  landed : List Byte
  sent : List Byte
  overs : Nat
  nan : Nat
  nonfinite : Nat
  cycles : Nat
  deriving DecidableEq, Repr

/-- One engine: the unit it holds, a microcode load in progress, a failed known-answer run, an engine reset. -/
structure Engine where
  held : Option Held := none
  /-- Fabric time at which it took the unit it holds. -/
  since : Nat := 0
  loading : Bool := false
  failed : Bool := false
  resetting : Bool := false
  /-- Microcode image being read: bytes so far, all of it here, an uncorrectable error in it (R212). -/
  image : List Byte := []
  imageRead : Bool := false
  imageBad : Bool := false
  deriving DecidableEq, Repr

/-- A stream's stochastic generator: its seed, whether one was written, draws taken (R197). -/
structure Gen where
  seed : Word := 0
  pos : Nat := 0
  deriving DecidableEq, Repr

/-- The Mangle engines and their dispatch order. -/
structure MangleSt where
  queue : List MUnit := []
  engines : List Engine := List.replicate 12 {}
  gens : Tbl Gen := []
  deriving DecidableEq, Repr

/-! ### The Fold sequencer (chapter 6) -/

/-- STATE of FOLD.STREAM_STATE (Table 6.10). -/
inductive FState where
  | queue | starting | issuing | wait | tick | fence | done | stopping
  deriving DecidableEq, Repr

/-- A PASS at the head of its stream, or issued and not complete (R234). -/
structure Pass where
  cmd : Nat
  inA : Nat
  loc : Nat
  out : Nat
  len : Nat
  up : Nat
  outp : Nat
  keep : Bool
  final : Bool
  ctr : Nat
  lctr : Nat
  /-- Spans consumed so far; the next packet's number; a local check has failed, and it consumes no more (R97). -/
  consumed : Nat := 0
  nextK : Nat := 0
  stopped : Bool := false
  /-- Bytes of LOCAL asked for ahead of consumption, and the pieces: first byte, length, bytes once here, an uncorrectable error
  in them (R236). -/
  asked : Nat := 0
  ahead : List (Nat × Nat × Option (List Byte) × Bool) := []
  deriving DecidableEq, Repr

/-- An intercepted packet in pass staging or spill (R232). -/
structure Staged where
  /-- Its number, the stream whose window holds it, its source, offset, span, profile words. -/
  id : Nat
  stream : Nat
  src : Nat
  off : Nat
  span : Nat
  profile : Nat
  profileAB : Nat
  data : List Byte
  spilled : Bool
  /-- Its 4 KiB block of the spill area. -/
  place : Nat := 0
  deriving DecidableEq, Repr

/-- A PASS packet taken out of staging, on its way through a unit (R234). -/
structure PassPkt where
  cmd : Nat
  k : Nat
  off : Nat
  span : Nat
  profile : Nat
  profileAB : Nat
  data : List Byte
  bad : Bool := false
  loc : List (Nat × List Byte) := []
  reading : Nat := 0
  /-- It takes its local operand from what was read ahead (R236); where its result lands, by the check at its consumption; whether
  it is forwarded (R97, R235). -/
  fromAhead : Bool := false
  land : List (Nat × Nat × Bool) := []
  sends : Bool := true
  deriving DecidableEq, Repr

/-- The program running on a stream (R214 to R217). -/
structure Prog where
  st : FState := .queue
  cause : Nat := 0
  stopPc : Nat := 0
  pc : Nat := 0
  entry : Nat := 0
  n0 : Nat := 0
  n1 : Nat := 0
  n2 : Nat := 0
  a : List Word := List.replicate 64 0
  /-- Words of the operand table read, until the program starts (R215). -/
  args : Option (List Word) := none
  /-- The FOLD command it serves; 0 when none runs. -/
  cmd : Nat := 0
  /-- The data instruction at the head that is not yet issued, by command. -/
  head : Option Nat := none
  pass : Option Pass := none
  /-- Armed window [lo, hi) of window offsets (R231). -/
  win : Option (Nat × Nat) := none
  waitCtr : Nat := 0
  waitTgt : Word := 0
  /-- The running WAIT has met its target (1) or a poisoned counter (2) at some change of the counter (R241). -/
  met : Nat := 0
  /-- Fabric time the running WAIT, FENCE, DONE or PASS began (R241, R243, R230), or at which the program came to its instruction (R461). -/
  since : Nat := 0
  /-- Tick index a TICK holds for, and whether its ABS is 1 (R242). -/
  tickTgt : Nat := 0
  tickAbs : Bool := false
  /-- Stall counts since the last TICK with ABS = 1: input, local, output (R251). -/
  sIn : Nat := 0
  sLoc : Nat := 0
  sOut : Nat := 0
  /-- The stop's status when the cause is STATUS (R249). -/
  stopStatus : Nat := 0
  deriving DecidableEq, Repr

/-- The sequencer and its program store. -/
structure FoldSt where
  progs : List Prog := List.replicate 256 {}
  store : Tbl Slot := []
  /-- Instructions that hold an uncorrectable error (R223). -/
  bad : List Nat := []
  /-- Bits [127:64] latched by a LOW read, per window (R254). -/
  latch : List Word := List.replicate 8 0
  staged : List Staged := []
  nextStaged : Nat := 0
  passPkts : List PassPkt := []
  /-- The stream whose instruction was fetched last (R218). -/
  last : Nat := 255
  /-- Fabric time of that fetch (R461). -/
  lastAt : Nat := 0
  /-- Saturating per-stream counters, four per stream: overruns, input, local, output stalls (R253). -/
  ctrs : Tbl Nat := []
  deriving DecidableEq, Repr

/-! ### Time (chapters 11 and 13). The fields that TIME.STATUS shows are kept in its register word. -/

/-- Fabric time and what locking needs beside the registers of page 0x03. -/
structure TimeSt where
  /-- Tick edges are aligned with the parent's, or are the master's own (R436, R438). -/
  aligned : Bool := false
  /-- Fabric time in 1/16 ns, index of the last edge, fabric time of that edge. -/
  now : Nat := 0
  tick : Nat := 0
  edge : Nat := 0
  /-- No time has passed since the last edge: what R37 names can be done. -/
  atEdge : Bool := false
  /-- HOPS of each port's latest TIME; 255 where none has come (R438, R480). -/
  hops : List Nat := List.replicate 6 255
  /-- Consecutive TICKs of the parent that failed to arrive (R480). -/
  missed : Nat := 0
  /-- Running at half rate (R478); the step forward due at the next edge, in 1/16 ns. -/
  half : Bool := false
  stepDue : Nat := 0
  /-- Difference from the parent still to be slewed or run off, positive where this chip is ahead; the time up to which that has been
  worked out (R478). -/
  slew : Int := 0
  slewAt : Nat := 0
  /-- Period that a write has set and that the next edge takes (R38), in ns. -/
  periodDue : Option Nat := none
  /-- Signed sum of corrections since the last telemetry sample (Table 13.2). -/
  corr : Int := 0
  /-- Tick indices that the step taken at the last edge skips (R479). -/
  skip : Nat := 0
  /-- Time is set from a parent's TIME, and its next TICK aligns the edges (R438); TIME is due on every port in INIT or UP
  at the next edge. -/
  timeSet : Bool := false
  fresh : Bool := false
  /-- The parent's last recovered edge, in this chip's time, and its index (R482). -/
  lastTick : Option (Nat × Nat) := none
  /-- The tick master waits for TIME from its neighbours after a block reset (R468). -/
  waiting : Bool := false
  /-- Fabric time of the release of cold reset, for ELAPSED_MS; a lock that sets the time moves it along (Table 11.3). -/
  release : Int := 0
  deriving DecidableEq, Repr

/-! ### The forwarding core (chapter 8) -/

/-- Where one copy of a packet stands at its output. -/
inductive BranchSt where
  /-- Waits for its output to be committed. -/
  | waiting
  | committed
  /-- In the Hamper of its port (R316). -/
  | hamper
  /-- Leaves a Hamper, its spilled bytes being read back (R319). -/
  | reading
  /-- In the Hamper, closed by a flush that will discard it (R321). -/
  | closed
  deriving DecidableEq, Repr

/-- One copy of a packet on its way to one output (R293, R314). -/
structure Branch where
  /-- Output port 0–5. -/
  out : Nat
  subch : Nat
  epoch : Nat
  /-- Members below this copy (R121). -/
  members : Nat := 1
  st : BranchSt := .waiting
  /-- Slots sent, the header slot included. -/
  sent : Nat := 0
  /-- Place in the Hamper's arrival order; 0 for a copy that was never in one (R317). -/
  order : Nat := 0
  /-- Its bytes lie in the Hamper spill area, from byte `place` of it on (R319). -/
  spilled : Bool := false
  place : Nat := 0
  /-- Number of its commitment, for the order of R32 among lanes of a class. -/
  turn : Nat := 0
  written : Bool := false
  /-- Killed upstream after a part of it left: a resume slot with KILL is owed (R370). -/
  kill : Bool := false
  deriving DecidableEq, Repr

/-- A packet in the forwarding core, from its header slot's arrival until its last slot has left. -/
structure FPkt where
  id : Nat
  /-- Header slot as it arrived. -/
  hdr : Slot
  /-- 0–5 receiving port, 6 local injection. -/
  input : Nat
  /-- Sub-channel on arrival, and the session of the receiving port. -/
  sub : Nat
  session : Nat := 0
  data : List Slot := []
  routed : Bool := false
  branches : List Branch := []
  /-- It is also for local delivery (R293). -/
  local_ : Bool := false
  /-- Killed before it was whole (Table 9.10, R370). -/
  killed : Bool := false
  /-- Slots, header included, whose credits have been returned (R361). -/
  left : Nat := 0
  /-- Tick of arrival, for the snapshot. -/
  tick : Nat := 0
  deriving DecidableEq, Repr

/-- The forwarding core, its tables, route epochs and Hampers. -/
structure FwdSt where
  /-- Multicast group entries (Table 8.4), route entries by 32768·set + chip (Table 8.2). -/
  groups : Tbl Word := []
  routes : Tbl Nat := []
  /-- Current set; the other set's state: 0 RETIRED, 1 ARMED, 2 DRAINING; classes switched (Table 8.8). -/
  current : Nat := 0
  other : Nat := 0
  switched : Nat := 0xFF
  /-- Consecutive edges with DRAIN.COUNT zero (Table 8.3). -/
  zeroEdges : Nat := 0
  /-- Pairs (source chip, class) with NEW_SEEN set (R311). -/
  newSeen : List (Nat × Nat) := []
  /-- Local injection in order, and FSYNCs that a hold of R309 or R499 keeps back. -/
  inject : List Packet := []
  held : List Packet := []
  pkts : List FPkt := []
  nextId : Nat := 0
  /-- Next place in the Hampers' arrival order. -/
  nextOrder : Nat := 1
  /-- Next commitment's number. -/
  nextTurn : Nat := 0
  /-- Last input served, by 8·port + class (R32). -/
  rr : Tbl Nat := []
  /-- Edges without credit for the committed packet, by 16·port + lane (R301). -/
  starved : Tbl Nat := []
  /-- Matching packets since the last one captured and since the last record; records dropped since the last loss
  record; records of this tick (R322 to R324). -/
  capNth : Nat := 0
  capMatches : Nat := 0
  capLost : Nat := 0
  capCount : Nat := 0
  deriving DecidableEq, Repr

/-! ### The link layer (chapter 9) -/

/-- A flit as it is cut from the received stream, and whether a bit of it lay in an uncorrectable codeword (R329, R341). -/
structure Flit where
  hdr : Word
  body : List Slot
  echo : BitVec 32
  crc : BitVec 32
  bad : Bool := false
  deriving DecidableEq, Repr

/-- A flit sent and not yet acknowledged (R330, R355). -/
structure OutFlit where
  seq : Nat
  /-- 0 NORMAL, 3 CONTROL. -/
  typ : Nat
  body : List Slot
  echo : Nat
  /-- Header slots of the packets it opens with the members below each, and the packets its slots belong to with their epochs (Table 9.10, R310). -/
  hdrs : List (Slot × Nat) := []
  epochs : List (Nat × Nat) := []
  /-- In the spill area at a ring position; body and tag read back for a replay. -/
  spilled : Bool := false
  pos : Nat := 0
  bodyBack : Bool := false
  tagBack : Bool := false
  asked : Bool := false
  deriving DecidableEq, Repr

/-- One port's link layer. -/
structure PortSt where
  /-- STATE of Table 9.7: 0 DOWN, 1 TRAINING, 2 SEAM, 3 QUARANTINE, 4 INIT, 5 UP. -/
  st : Nat := 0
  /-- 0 none, 1 E1, 2 E2; link-protocol version; last cause (Table 9.9). -/
  mode : Nat := 0
  version : Nat := 0
  cause : Nat := 0
  /-- N, O and E (R345). -/
  n : Nat := 0
  o : Nat := 0
  e : Nat := 0
  flits : List OutFlit := []
  /-- Next flit of the running replay (R350), replays started since O advanced (R352). -/
  replay : Option Nat := none
  replays : Nat := 0
  /-- A NAK is due in the next flit position; E and time of the last one sent (R348). -/
  nakDue : Bool := false
  nakLast : Option (Nat × Nat) := none
  /-- Counter that the next flit reports (R362). -/
  crSel : Nat := 0
  /-- Send side: slots sent, credits returned, the peer's limits; receive side: received, returned, limits in force;
  limits for the next INIT (R359 to R361, R372). Numbered as CR_SEL numbers them. -/
  txUsed : List Nat := List.replicate 32 0
  txBack : List Nat := List.replicate 32 0
  txLimit : List Nat := List.replicate 32 0
  rxUsed : List Nat := List.replicate 32 0
  rxBack : List Nat := List.replicate 32 0
  rxLimit : List Nat := List.replicate 32 0
  limits : List Nat := [32, 128, 32, 128, 192, 1024, 192, 1024, 192, 6144, 192, 6144, 128, 12288, 128, 12288,
                        128, 8192, 128, 8192, 128, 512, 128, 512, 32, 1024, 32, 1024, 0, 0, 0, 0]
  /-- Lane whose packet is in progress on transmit and on receive (R335, R338). -/
  txCur : Option Nat := none
  rxCur : Option Nat := none
  /-- Packet in progress, suspended or current, of each receive lane: (lane, packet). -/
  rxLanes : List (Nat × Nat) := []
  /-- Flit positions received, and those of bad flits among the last 2²⁰ (Table 9.9). -/
  pos : Nat := 0
  badPos : List Nat := []
  session : Nat := 0
  /-- Spill ring: latched BASE, SIZE and ENABLE, next position (R355, R356). -/
  spillOn : Bool := false
  spillBase : Nat := 0
  spillSize : Nat := 0
  ringNext : Nat := 0
  /-- INIT flit sent, acknowledged; the peer's accepted (R365). -/
  initSent : Bool := false
  initAcked : Bool := false
  initGot : Bool := false
  /-- CREDIT_ADV messages of the accepted CONTROL flit not yet read (R365). -/
  advs : List Slot := []
  /-- Slots of the running tick left to each class's share, and last those that no share covers (R39). -/
  budget : List Nat := List.replicate 9 0
  /-- The flit on the data lanes: header, body, LINK_ECHO, CRC. -/
  wire : Option (Word × List Slot × Nat × Nat) := none
  deriving DecidableEq, Repr

/-! ### Lanes, pilot lane and training (chapter 10) -/

/-- One data lane (Tables 10.8, 10.14). -/
structure LaneInfo where
  /-- A window has been measured on it since training began. -/
  measured : Bool := false
  fom : Nat := 0
  d : Nat := 0
  eh : Nat := 0
  inverted : Bool := false
  peerLane : Nat := 0
  /-- MARKER_LOCK; markers found in a row at the lane's bit boundary, and the bits that slips have moved it (R396). -/
  marker : Bool := false
  run : Nat := 0
  off : Nat := 0
  /-- Transmit taps in 1/64: PRE2, PRE1, POST1, POST2 (MAIN follows, R390). -/
  taps : List Int := [0, 0, 0, 0]
  /-- Taps of the peer's transmitter on this lane, as this end has asked for them (R404). -/
  far : List Int := [0, 0, 0, 0]
  /-- The lane's receiver settings: peaking, gain, six feedback taps. -/
  ctle : Nat := 0
  gain : Nat := 0
  dfe : List Nat := [0, 0, 0, 0, 0, 0]
  deriving DecidableEq, Repr

/-- One data lane's sender: its scrambler (R379), and a bit that waits for the other of its pair (R378). -/
structure LaneTx where
  scr : Nat
  odd : Option Nat := none
  deriving DecidableEq, Repr

/-- A port's framing on sending (R340, R342). -/
structure Framer where
  /-- 0 none, 1 E1, 2 E2. -/
  mode : Nat := 0
  /-- Bits of the flit stream not yet cut into a codeword or a row of words, and how many. -/
  buf : Nat := 0
  len : Nat := 0
  /-- Codewords or rows since the last marker; markers sent, and how many of them before the count of GROUP began (Tables 10.3, 10.4). -/
  count : Nat := 0
  marks : Nat := 0
  base : Nat := 0
  lanes : List LaneTx := []
  /-- Levels that left on each lane at the last flit time. -/
  out : List (List Nat) := []
  deriving DecidableEq, Repr

/-- One data lane's receiver: its scrambler, the bits received and not yet cut, and how many. -/
structure LaneRx where
  scr : Nat
  bits : Nat := 0
  len : Nat := 0
  /-- Bits that slips have yet to leave out (R396). -/
  drop : Nat := 0
  deriving DecidableEq, Repr

/-- A run of received stream bits, and whether it comes from an uncorrectable codeword (R341). -/
structure Chunk where
  len : Nat
  val : Nat
  bad : Bool := false
  deriving DecidableEq, Repr

/-- A port's framing on receiving (R341 to R343, R397). -/
structure Deframer where
  mode : Nat := 0
  lanes : List LaneRx := []
  /-- The received stream not yet cut into flits, from the tracked flit boundary on, but for `skip` bits before it. -/
  chunks : List Chunk := []
  skip : Nat := 0
  /-- Codewords since the last uncorrectable one, or rows of words since the last parity error. -/
  clean : Nat := 0
  /-- GROUP of the last marker, and how many markers in a row have carried consecutive values. -/
  group : Option Nat := none
  groups : Nat := 0
  /-- Flit position at the last marker. -/
  mark : Nat := 0
  deriving DecidableEq, Repr

/-- Where full adaptation stands (R401, R404). -/
inductive AdaptPhase where
  /-- Not adapting. -/
  | off
  /-- The taps of a starch record are being loaded. -/
  | starch
  /-- Preset TXP`k` is requested and measured. -/
  | sweep (k : Nat)
  /-- Each lane's best preset is requested. -/
  | best
  /-- Tap `tap` is one step up, or one step down, in a round. -/
  | up (round tap : Nat)
  | down (round tap : Nat)
  /-- The rounds have ended. -/
  | ended
  deriving DecidableEq, Repr

/-- Adaptation of a port's sixteen lanes. -/
structure Adapt where
  phase : AdaptPhase := .off
  /-- Request code of each lane for the next TRAIN, the DOWN2 bits, and whether they have yet to leave (R390). -/
  codes : List Nat := []
  down2 : Nat := 0
  due : Bool := false
  /-- Each lane's FOM before the request, and at the start of the round; the best FOM of the sweep with its preset. -/
  before : List Nat := []
  start : List Nat := []
  top : List (Nat × Nat) := []
  /-- Taps of the starch record (R404). -/
  goal : List (List Int) := []
  deriving DecidableEq, Repr

/-- A pilot message: control-block payload and data blocks (R385). -/
structure PilotMsg where
  ctl : Word
  data : List Word := []
  deriving DecidableEq, Repr

/-- One port's lanes, pilot lane and training. -/
structure LaneSt where
  lanes : List LaneInfo := List.replicate 16 {}
  /-- This end has finished the step in progress, and a TRAIN has said so; the peer's last announced step and STEP_DONE (R392). -/
  done : Bool := false
  told : Bool := false
  peerStep : Nat := 0
  peerDone : Bool := false
  /-- The peer's CAPS (R393); rates removed by a failure (R398). -/
  caps : Option Nat := none
  removed : Nat := 0
  /-- The mode trained for, 1 E1, 2 E2 (R393). -/
  mode : Nat := 0
  /-- HELD of the transmitters (R390). -/
  heldTaps : Nat := 0
  /-- The record in use in step 5 (R404). -/
  starch : Bool := false
  /-- Full adaptation (R401). -/
  adapt : Adapt := {}
  /-- The data lanes' framing (R340 to R342). -/
  tx : Framer := {}
  rx : Deframer := {}
  /-- Each lane's generator and checker registers of a pattern test (R405). -/
  gen : List Nat := []
  chk : List Nat := []
  /-- Saturating PRBS_ERRORS of lanes 0–15 and PL. -/
  prbs : List Word := List.replicate 17 0
  /-- The first line of Table 10.11 that applies to the peer's SEAM, DELAY_RANGE apart; none before it has come. -/
  seen : Option Nat := none
  /-- This end's own seam result once worked out; the peer's, as (RESULT, VERSION) (R413, R414). -/
  result : Option Nat := none
  peerResult : Option (Nat × Nat) := none
  /-- The last seam check gave AGREED (R389). -/
  agreed : Bool := false
  /-- The measurement of R409: samples asked for, t1 of the one in flight, flights so far in half units of 1/16 ns. -/
  asked : Nat := 0
  t1 : Option (Nat × Nat) := none
  flights : List Nat := []
  /-- Bits still to slip and the lane (R396). -/
  slip : Option (Nat × Nat) := none
  /-- Pilot transmitter and receiver settings (Table 10.8). -/
  pilotSet : Word := 0
  /-- Whether the sync header of each of the last 64 blocks was valid, the oldest first (R384). -/
  headers : List Bool := []
  /-- Lock lost and the PILOT_LOSS timer running (R384). -/
  lossRunning : Bool := false
  /-- Port powered; a power-up running (R524, R525). -/
  powered : Bool := true
  powering : Bool := false
  /-- The pilot messages that left last, and their blocks; the scrambler's last 58 bits on sending, and on receiving as they came (R383). -/
  wire : List PilotMsg := []
  blocks : List Nat := []
  pilotTx : Nat := 0
  pilotRx : Nat := 0
  deriving DecidableEq, Repr

/-! ### Observation (chapter 13) -/

/-- The snapshot that is being written (R495, R496): its header and where that goes, the next byte, and the bytes of its sections still to
be issued. -/
structure SnapRun where
  base : Nat
  hdr : List Byte
  next : Nat
  rest : List Byte
  deriving DecidableEq, Repr

/-- Interval counts, per-class counters, trace and snapshot state. -/
structure ObsSt where
  /-- Counts since the last telemetry sample, by register word; other counts from 2²⁰ on (R489). -/
  iv : Tbl Nat := []
  /-- Saturating counters by 8·(8·port + class) + kind: slots sent and received, packets sent and received,
  BUDGET_SHORT (R487). -/
  pc : Tbl Word := []
  /-- Tick of the last sample; records dropped since the last record; what held at any time in the interval;
  sums and number of clock and power samples (Table 13.2). -/
  sampleTick : Nat := 0
  telemLost : Nat := 0
  sawHold : Bool := false
  sawCrease : Bool := false
  sawDown : Bool := false
  clkSum : Nat := 0
  powSum : Nat := 0
  samples : Nat := 0
  /-- Trace records of this tick; events dropped since the last LOSS and the time of the first (R492, R493). -/
  trCount : Nat := 0
  trLost : Nat := 0
  trLostAt : Nat := 0
  /-- A snapshot due at the next edge, by cause (R495). -/
  snapDue : Option Nat := none
  /-- Tick of that demand: the snapshot is taken at a later edge. -/
  snapTick : Nat := 0
  /-- The snapshot that runs. -/
  snap : Option SnapRun := none
  /-- Groups of counters to clear at the next edge (R486). -/
  clearDue : Nat := 0
  /-- Tick index of the last cut (R499, R502). -/
  cutTick : Nat := 0
  /-- Tick of that write: the counters clear at a later edge. -/
  clearTick : Nat := 0
  /-- Ticks at which the packets of the destination's inbox and of local injection came, for the snapshot. -/
  arrived : List (Packet × Nat) := []
  deriving DecidableEq, Repr

/-! ### Resets and contexts (chapter 12). PHASE, LAST_LEVEL and the like are kept in RESET.STATUS. -/

/-- Contexts, the Rinse, and resets in progress. -/
structure RstSt where
  /-- The compute domain is down: it absorbs (R34, R420, R462). Up only once step 9 of start-up has completed. -/
  down : Bool := true
  /-- Steps 2 to 5 of Table 12.5: issue and spill have stopped, the host channels still drain. -/
  draining : Bool := false
  /-- Level of the reset in progress: 0 none, 2 engine, 3 compute-domain, 4 block, 5 cold requested (R458). -/
  level : Nat := 0
  /-- HOLD in bit 0 and SUSPECT in bit 1 of each context (Table 12.11). -/
  hold : Tbl Word := []
  /-- The Rinse accepted and waiting for its start edge; the one that runs, its start tick, the packets it waits for,
  and how often its deadline has passed (R453, R455, R472). -/
  rinseDue : Option Nat := none
  rinse : Option Nat := none
  rinsing : Bool := false
  rinseStart : Nat := 0
  rinsePkts : List Nat := []
  rinsePassed : Nat := 0
  /-- Engines under reset, 12 for the sequencer (R459, R460). -/
  engines : List Nat := []
  /-- The host channels carry nothing: from the end of a reset's drain until step 9 of start-up (R287, R288). -/
  closed : Bool := false
  /-- (engine, context, tick) of the work that engines took, for R473. -/
  took : List (Nat × Nat × Nat) := []
  /-- COLD_REQ (R467, R512). -/
  coldReq : Bool := false
  deriving DecidableEq, Repr

/-! ### Start-up, firmware, fuses, Mildom and JTAG (chapters 11 and 14) -/

/-- Start-up, firmware, fuses, Mildom and JTAG. -/
structure BootSt where
  /-- COLD_RST_N is low (R511). -/
  coldHeld : Bool := false
  /-- Provisional ID's random 12 bits, dynamic address (R516), the answer that the next private read gets (R513). -/
  provId : Nat := 0
  addr : Option Nat := none
  answer : List Byte := []
  /-- Fuses: variant, engines and banks, revision, serial number (§11.2; DESIGN CHOICE, log entry 6). -/
  fuseVariant : Option Nat := none
  fuseEngines : Nat := 0
  fuseBanks : Nat := 2 ^ 64 - 1
  fuseRevision : Nat := 0xB1
  fuseSerial : Word := 0
  /-- Version of the microcode that each engine holds: of the image last loaded, 0 for the one it starts with (log entry 65). -/
  ucode : List Nat := List.replicate 12 0
  /-- Engines that failed step 2, step 8 or a load; those of them that failed step 2; the sequencer's last run; ports whose replay buffer failed; whether
  step 9 has completed since cold reset. -/
  failed : Nat := 0
  sramFailed : Nat := 0
  seqGood : Bool := false
  portFailed : Nat := 0
  published : Bool := false
  /-- The image offered in the boot wait: length, bytes by offset, whether its check runs, its outcome (R424, R426). -/
  offer : Option Nat := none
  offered : List (Nat × List Byte) := []
  checking : Bool := false
  offerOk : Bool := false
  /-- Staged and running images: (version, bytes) and (kind, version) (R427, Table 11.3). -/
  staged : Option (Nat × List Byte) := none
  running : Nat × Nat := (0, 0)
  /-- The image being read for FW_LOAD: bytes so far, all of it here, an uncorrectable error in it (R426). -/
  image : List Byte := []
  imageRead : Bool := false
  imageBad : Bool := false
  loading : Bool := false
  /-- The broadcast being received: session, chunks, activation due (R430). -/
  session : Option Nat := none
  chunks : List (Nat × List Byte) := []
  recvDue : Option (Nat × Nat × Nat) := none
  /-- The broadcast being sent: round and next chunk (R429). -/
  bcast : Option (Nat × Nat) := none
  /-- The management core runs an image, has restarted or booted at `startAt`, and restarts now (R424, R428, R469). -/
  coreUp : Bool := false
  startAt : Int := 0
  restarting : Bool := false
  /-- The step of Table 11.1 that goes on beneath a STAGE of 8, which a compute-domain reset set before start-up came to it (R421). -/
  early : Option Nat := none
  /-- Ports whose training waits for the restarted core (R428, R458). -/
  trainDue : List Nat := []
  /-- Mask of ports that have reached INIT or UP, entered QUARANTINE or ended a training in TRAINING_FAIL since step 6 began (R418). -/
  reached : Nat := 0
  /-- Fabric time of the last kick of the watchdog (R469), and the copy of each port's starch record that firmware keeps,
  word `i` of port `p` under 64·p + i (R467). -/
  kickAt : Int := 0
  starch : Tbl Word := []
  /-- Quick bites in a row (R469). -/
  bites : Nat := 0
  /-- An EXTEST instruction is in force (R518); JTAG: last instruction, its data register, the boundary register. -/
  extest : Bool := false
  jtagIr : Nat := 0
  jtagDr : Nat := 0
  boundary : Nat := 0
  /-- THERMTRIP_N is driven low, until a cold reset (R527). -/
  thermLow : Bool := false
  /-- Power estimates of the last ticks, ticks below the cap, the clock that the power rule allows (R445). -/
  powers : List Nat := []
  below : Nat := 0
  capMhz : Nat := 1800
  deriving DecidableEq, Repr

/-- What the register port's answer signals hold (Table 7.6): RP_RDATA, RP_RCHK, RP_ERR of the last answer, and how often RP_ACK has
been raised. One access is one command: RP_VALID and RP_READY meet and RP_ACK follows within it (log entry 77). -/
structure RpSt where
  rdata : Word := 0
  rchk : Nat := 0
  err : Bool := false
  acks : Nat := 0
  deriving DecidableEq, Repr

/-- Everything the block holds but the queue of waiting commands. -/
structure Block where
  /-- Register words by window word index; an unlisted word holds its reset value (R531). -/
  regs : Tbl Word := []
  /-- Segment Map entries by index, and DARN words (bank + 64·k) that hold an uncorrectable error (R47, R48, R65). -/
  segmap : Tbl Word := []
  segBad : List Nat := []
  /-- SEGMAP.KEY_ROOT: the root once written (R58, R59). -/
  keyRoot : Option Word := none
  /-- Arrival counters, those poisoned, those whose mirror write is pending (R151, R157, R159). -/
  ctrs : Tbl Word := []
  ctrBad : List Nat := []
  mirrorDue : List Nat := []
  /-- Counter group entries, and those that hold an uncorrectable error (R68, R69). -/
  groups : Tbl Word := []
  groupBad : List Nat := []
  /-- Packets that the running SEGMAP.FENCE and CTR.FENCE wait for, and counters whose mirror the latter waits for (R74, R176). -/
  segFence : List Nat := []
  ctrFence : List Nat := []
  time : TimeSt := {}
  host : HostSt := {}
  req : ReqSt := {}
  dest : DestSt := {}
  mangle : MangleSt := {}
  fold : FoldSt := {}
  fwd : FwdSt := {}
  ports : List PortSt := List.replicate 6 {}
  lanes : List LaneSt := List.replicate 6 {}
  boot : BootSt := {}
  rst : RstSt := {}
  obs : ObsSt := {}
  /-- The register port's last answer: RP_RDATA and RP_ERR (R282, R284). -/
  rp : RpSt := {}
  /-- Free values used so far: the argument of the next `Config.freeValue` (log entry 7). -/
  free : Nat := 0
  deriving DecidableEq, Repr

/-- The state of the machine: the block, and the commands that wait, first in, first out. -/
structure State where
  pending : List Instr
  blk : Block
  deriving DecidableEq, Repr

/-- Why the machine would stop with a fault. No rule of the spec stops the block so: no meaning raises one. -/
inductive Fault where
  /-- Raised by no meaning; declared because the interface wants a type of faults. Safe. -/
  | none
  deriving DecidableEq, Repr

/-- Why a command would be refused. -/
inductive Refusal where
  /-- The command has no meaning yet; raised only by an arm of `exec`. Safe. -/
  | notModelled (mnemonic : String)
  deriving DecidableEq, Repr

/-- The machine right after COLD_RST_N is released with both straps 0 and fuses as log entry 6 names them:
every register at its reset value, nothing listed in any table, STAGE 1 of start-up (R416). -/
def State.reset : State := { pending := [], blk := {} }

end Sys2Proof.Machine
end

