-- ==== Sys2Proof/Machine/Flags.lean ====
section
/-!
DEFINITION. Register words, saturating counters, PAGE_ERRORS, and the ranking of statuses: what every unit of the
block sets and counts.
-/

namespace Sys2Proof.Machine

/-- The word a register holds. -/
def Block.peek (b : Block) (w : Nat) : Word := Tbl.get (regDefault w) b.regs w

/-- A register word set by the block itself. -/
def Block.poke (b : Block) (w : Nat) (v : Word) : Block := { b with regs := Tbl.set (regDefault w) b.regs w v }

/-- Field `[hi:lo]` of a register. -/
def Block.rf (b : Block) (w hi lo : Nat) : Nat := fld (b.peek w) hi lo

/-- Field `[hi:lo]` of a register set by the block itself. -/
def Block.setRf (b : Block) (w hi lo x : Nat) : Block := b.poke w (setFld (b.peek w) hi lo x)

/-- A saturating count: it stops at all ones of [47:0], and reaching all ones sets the sticky bit [48] (§0.6). -/
def satAdd (v : Word) (n : Nat) : Word :=
  let c := fld v 47 0 + n
  let top := 2 ^ 48 - 1
  let v' := setFld v 47 0 (if top ≤ c then top else c)
  if top ≤ c then setFld v' 48 48 1 else v'

/-- `n` events counted for the running telemetry interval (R489). -/
def Block.ivAdd (b : Block) (key n : Nat) : Block :=
  { b with obs := { b.obs with iv := Tbl.set 0 b.obs.iv key (Tbl.get 0 b.obs.iv key + n) } }

/-- `n` events counted in a saturating counter, and in the interval count beside it (R485, R489). -/
def Block.bumpN (b : Block) (w n : Nat) : Block :=
  if n == 0 then b else (b.poke w (satAdd (b.peek w) n)).ivAdd w n

/-- One event counted. -/
def Block.bump (b : Block) (w : Nat) : Block := b.bumpN w 1

/-- `n` events counted in PAGE_ERRORS of a page, with LAST_KIND and LAST_WORD set (R538). -/
def Block.pageErrN (b : Block) (page kind word_ n : Nat) : Block :=
  if n == 0 then b else
  let w := regAt page 0x018
  b.poke w (setFld (setFld (satAdd (b.peek w) n) 63 60 kind) 57 49 word_)

/-- One event of a kind (Table 15.4) counted in PAGE_ERRORS of a page. -/
def Block.pageErr (b : Block) (page kind word_ : Nat) : Block := b.pageErrN page kind word_ 1

/-- Rank of a status (R116): POISON, RINSED, FLUSHED, TORN, TIMEOUT, DENIED, ABSENT, OK, highest first. -/
def rank : Nat → Nat
  | 5 => 7
  | 4 => 6
  | 7 => 5
  | 1 => 4
  | 6 => 3
  | 2 => 2
  | 3 => 1
  | _ => 0

/-- STATUS codes (Table 3.12). -/
def stOK : Nat := 0
def stTORN : Nat := 1
def stDENIED : Nat := 2
def stABSENT : Nat := 3
def stRINSED : Nat := 4
def stPOISON : Nat := 5
def stTIMEOUT : Nat := 6
def stFLUSHED : Nat := 7

/-- A command's status raised to another when that one ranks higher; FAIL_CHIP names its first reporter (R116). -/
def Cmd.meet (c : Cmd) (status reason chip : Nat) : Cmd :=
  if rank c.status < rank status then { c with status, reason, failChip := chip } else c

/-! ### Window words of registers that several units read -/

def wSealLeft : Nat := regAt 0x02 0x048
def wSeal : Nat := regAt 0x02 0x040
def wPatch0 : Nat := regAt 0x01 0x040
def wPatchPort (p : Nat) : Nat := regAt 0x01 (0x050 + 8 * p)
def wCode : Nat := regAt 0x01 0x080
def wStartup : Nat := regAt 0x01 0x800
def wFeatOffered : Nat := regAt 0x00 0x050
def wFeatAgreed : Nat := regAt 0x00 0x058
def wPeriod : Nat := regAt 0x03 0x050
def wTimeStatus : Nat := regAt 0x03 0x058
def hc (n off : Nat) : Nat := regAt (0x20 + n) off
def mg (n off : Nat) : Nat := regAt (0x30 + n) off
def fo (off : Nat) : Nat := regAt 0x40 off
def rt (off : Nat) : Nat := regAt 0x50 off
def sg (off : Nat) : Nat := regAt 0x58 off
def ct (off : Nat) : Nat := regAt 0x60 off
def cx (off : Nat) : Nat := regAt 0x70 off
def rs (off : Nat) : Nat := regAt 0x78 off
def cn (off : Nat) : Nat := regAt 0x7C off
def tr (off : Nat) : Nat := regAt 0x7E off
def db (off : Nat) : Nat := regAt 0x7F off
def lk (p off : Nat) : Nat := regAt (0x10 + p) off
def ln (p off : Nat) : Nat := regAt (0x18 + p) off

/-- The step of Table 11.1 in progress: STAGE of VARIANT.STARTUP, but where a compute-domain reset shows 8 before start-up has come to
it (R421). -/
def Block.bootStage (b : Block) : Nat := b.boot.early.getD (b.rf wStartup 63 60)

/-- This chip's ID: coordinate fields of TOPO.SEAL (Table 15.10, R42). -/
def Block.chipId (b : Block) : Nat := b.rf wSeal 14 0

/-- Axis length of axis 0 (x), 1 (y), 2 (z) of the sealed topology (Table 15.10). -/
def Block.axisLen (b : Block) (axis : Nat) : Nat :=
  (if axis == 0 then b.rf wSeal 63 59 else if axis == 1 then b.rf wSeal 58 54 else b.rf wSeal 53 49) + 1

/-- Coordinate of a chip ID along an axis (R42). -/
def coord (chip axis : Nat) : Nat := chip / 32 ^ axis % 32

/-- Whether a chip ID lies inside the sealed topology. -/
def Block.chipInSeal (b : Block) (chip : Nat) : Bool :=
  decide (coord chip 0 < b.axisLen 0) && decide (coord chip 1 < b.axisLen 1) && decide (coord chip 2 < b.axisLen 2)

/-- Whether feature bit `i` is agreed and still offered (R543). -/
def Block.agreed (b : Block) (i : Nat) : Bool := bit (b.peek wFeatAgreed) i && bit (b.peek wFeatOffered) i

/-- Whether the compute domain is up. -/
def Block.up (b : Block) : Bool := !b.rst.down

/-- A field of TIME.STATUS (Table 13.9). -/
def Block.ts (b : Block) (hi lo : Nat) : Nat := b.rf wTimeStatus hi lo

/-- Whether the chip is time-locked. -/
def Block.locked (b : Block) : Bool := b.ts 63 63 == 1

/-- Whether the chip acts as tick master. -/
def Block.isMaster (b : Block) : Bool := b.ts 61 61 == 1

/-- Whether the chip has tick edges: locked, its edges aligned with its parent's or its own as a master, no EXTEST in force
and no cold reset held (R437, R438, R518). -/
def Block.ticks (b : Block) : Bool :=
  b.locked && (b.time.aligned || b.isMaster) && !b.boot.extest && !b.boot.coldHeld

/-- Whether this moment is a tick edge, at which the actions of R37 take place: no time has passed since the edge. -/
def Block.onEdge (b : Block) : Bool := b.ticks && b.time.atEdge

/-- Whether the chip is creased (R499). -/
def Block.creased (b : Block) : Bool := bit (b.peek (db 0x050)) 62

/-- Whether the chip issues no TC1, TC3, TC4 and TC5 packet and admits nothing: creased, or draining for a reset of the
compute domain (R462, R499). -/
def Block.issueHeld (b : Block) : Bool := b.creased || b.rst.draining

/-- An engine, 12 for the sequencer, takes work of a context: its set of the last 64 tick periods (R473). -/
def Block.noteTook (b : Block) (e c : Nat) : Block :=
  let keep := b.rst.took.filter fun x => decide (b.time.tick ≤ x.2.2 + 64) && !(x.1 == e && x.2.1 == c)
  { b with rst := { b.rst with took := keep ++ [(e, c, b.time.tick)] } }

/-- A counter's value (R151). -/
def Block.ctrVal (b : Block) (n : Nat) : Word := Tbl.get 0 b.ctrs n

/-- Whether the mirror covers a counter (R157). -/
def Block.mirrored (b : Block) (n : Nat) : Bool := bit (b.peek (ct (0x080 + 8 * (n / 4096)))) (n / 64 % 64)

/-- Whether a counter value reaches a target (R153). -/
def reaches (v t : Word) : Bool := decide ((v - t).toNat < 2 ^ 63)

/-- The programs that WAIT on a counter see the value, or that it is poisoned, as it is now (R153, R241). -/
def Block.wake (b : Block) (n : Nat) : Block :=
  { b with fold := { b.fold with progs := b.fold.progs.map fun p =>
      if p.st = .wait && p.waitCtr == n && p.met == 0 then
        { p with met := if b.ctrBad.contains n then 2 else if reaches (b.ctrVal n) p.waitTgt then 1 else 0 }
      else p } }

/-- One change of a counter (R151): dropped and counted while it is poisoned (R159); the mirror owes it a write,
and programs that wait on it see the new value. -/
def Block.ctrChange (b : Block) (n : Nat) (f : Word → Word) : Block :=
  if b.ctrBad.contains n then b.bump (ct 0x108)
  else
    let b := { b with ctrs := Tbl.set 0 b.ctrs n (f (b.ctrVal n)) }.wake n
    if b.mirrored n && !(b.mirrorDue.contains n) then { b with mirrorDue := b.mirrorDue ++ [n] } else b

/-- An advance modulo 2⁶⁴; counter 0 means no counter (R103). -/
def Block.ctrAdvance (b : Block) (n amount : Nat) : Block :=
  if n == 0 then b else b.ctrChange n (· + word amount)

/-- An uncorrectable DARN error in a counter (R159). -/
def Block.ctrPoison (b : Block) (n : Nat) : Block :=
  if b.ctrBad.contains n then b else ({ b with ctrBad := n :: b.ctrBad }.wake n).bump (ct 0x100)

/-- What the DARN check of a counter's word found as the block read it (R159): counted where corrected, POISONED set otherwise. -/
def Block.ctrFind (b : Block) (n : Nat) (d : Darn) : Block :=
  match d with
  | .good => b
  | .corrected => b.pageErr 0x60 4 0
  | .bad => b.ctrPoison n

/-- Interval counts that no register holds: commands completed, flows broken, capture and error records written, steps
counted as behind, ticks not UP of port `p`, sum and number of the read latencies of channel `n`. -/
def ivCompleted : Nat := 2 ^ 20
def ivBroken : Nat := 2 ^ 20 + 1
def ivCaptured : Nat := 2 ^ 20 + 2
def ivErrors : Nat := 2 ^ 20 + 3
def ivBehind : Nat := 2 ^ 20 + 4
def ivLatSum (n : Nat) : Nat := 2 ^ 20 + 32 + n
def ivLatN (n : Nat) : Nat := 2 ^ 20 + 48 + n
def ivDown (p : Nat) : Nat := 2 ^ 20 + 8 + p

/-- A counter of a port and class (R487): kind 0 slots sent, 1 slots received, 2 packets sent, 3 packets received,
4 BUDGET_SHORT. -/
def pcKey (port cls kind : Nat) : Nat := 8 * (8 * port + cls) + kind
def Block.pcBump (b : Block) (port cls kind : Nat) : Block :=
  let k := pcKey port cls kind
  ({ b with obs := { b.obs with pc := Tbl.set 0 b.obs.pc k (satAdd (Tbl.get 0 b.obs.pc k) 1) } }).ivAdd (2 ^ 21 + k) 1

/-- One engine page's counter of a path (Table 5.12): 1 reduce, 2 PASS, 3 conversion, 4 Wring. -/
def pathCounter (path : Nat) : Nat := mg 0 (0x918 + 8 * (path - 1))

end Sys2Proof.Machine
end

