-- ==== Sys2Proof/Machine/Ops.lean ====
section
/-!
DEFINITION. Host memory through the host channels (chapter 7), and the rings and records the block writes there.
Host memory lies outside the boundary (R1, R2): the state holds each access until the host die answers it.
-/

namespace Sys2Proof.Machine

/-! ### Channels (R278 to R280) -/

/-- The channel that the map names for a host physical address (R278). -/
def Block.mapChan (b : Block) (a : Nat) : Nat :=
  let sh := b.rf (hc 0 0x800) 4 0
  let i := (a / 2 ^ sh % 64) ^^^ (a / 2 ^ (sh + 6) % 64)
  b.rf (hc 0 (0x808 + 8 * (i / 16))) (4 * (i % 16) + 3) (4 * (i % 16))

/-- Whether a channel is neither set to quiesce nor disabled (R280). -/
def Block.chanUp (b : Block) (n : Nat) : Bool := b.rf (hc n 0x010) 1 0 == 1

/-- Transactions a channel carries that are not answered. -/
def Block.chanOut (b : Block) (n : Nat) : List Txn := b.host.out.filter fun t => t.chan == n && !t.dead

/-- STATE of a channel (Table 7.12). -/
def Block.chanState (b : Block) (n : Nat) : Nat :=
  if b.chanUp n then 1
  else if !(b.chanOut n).isEmpty then 2
  else if b.rf (hc n 0x010) 0 0 == 0 then 0 else 3

/-- The next channel in ascending order, wrapping, that is neither quiesced nor disabled (R280). -/
def Block.nextChan (b : Block) (n : Nat) : Option Nat :=
  ((List.range 11).map fun k => (n + k + 1) % 12).find? b.chanUp

/-- The channel that carries a channel's addresses (R280): itself once it is up and no substitute holds one of its
transactions, the substitute while it is not; none while accesses must wait, for a channel that drains too. -/
def Block.servedBy (b : Block) (n : Nat) : Option Nat :=
  match b.host.out.find? fun t => t.home == n && t.chan != n && !t.dead with
  | some t => if b.chanUp t.chan then some t.chan else none
  | none => if b.chanUp n then some n else if b.chanState n == 2 then none else b.nextChan n

/-- Tags in use on a channel, dead ones included (R262, R267). -/
def Block.tagsBusy (b : Block) (n : Nat) : Nat := (b.host.out.filter fun t => t.chan == n).length

/-- Response-buffer beats a transaction reserves (R262). -/
def Txn.reserve (t : Txn) : Nat := match t.kind with | .rd => t.beats | .wr => 0 | _ => 1

/-- Unreserved response-buffer beats of a channel (R262). -/
def Block.beatsFree (b : Block) (n : Nat) : Nat :=
  1024 - ((b.chanOut n).map Txn.reserve).sum

/-- Transfers of a transaction: one for each beat of a write, one for a read or an atomic (R256). -/
def Txn.xfers (t : Txn) : Nat := if t.kind = .wr then t.beats else 1

/-- Whether the host has taken every transfer of a transaction. -/
def Txn.sent (t : Txn) : Bool := t.taken == t.xfers

/-- Unreleased LOCK reads of a channel (R263): one that is offered, and each that the host has taken until its UNLOCK write has been
answered. -/
def Block.locks (b : Block) (n : Nat) : Nat :=
  (b.host.locks.filter fun l => l.chan == n).length
  + (b.host.out.filter fun t => t.chan == n && t.lock && t.taken == 0).length

/-- Whether LOCK and UNLOCK are set at all (R272). -/
def Block.lockedRmw (b : Block) : Bool := b.rf (hc 0 0x828) 0 0 == 1

/-- Locks taken in a byte range. -/
def Block.locksIn (b : Block) (addr n : Nat) : List Lock :=
  b.host.locks.filter fun l => decide (addr ≤ l.addr) && decide (l.addr < addr + n)

/-- The lowest free tag of a channel (R262). -/
def Block.freeTag (b : Block) (n : Nat) : Option Nat :=
  findIdx 1024 fun t => !(b.host.out.any fun x => x.chan == n && x.tag == t)

/-- Whether an access belongs to a dump, which a block reset writes as its channels close (R470). -/
def Block.isDump (b : Block) (job : Nat) : Bool :=
  b.host.jobs.any fun j => j.id == job && (match j.kind with | .areaBody .. => true | .dump => true | _ => false)

/-- Whether an access is one that the drain of a compute-domain reset still offers: the dump, a replay's reads of its spill and
the release of locks (R287, R358, R470; DEDUCED, log entry 62). -/
def Block.drains (b : Block) (t : Txn) : Bool :=
  t.unlock || b.isDump t.job || b.host.jobs.any fun j => j.id == t.job && (match j.kind with | .replayRead .. => true | _ => false)

/-- Whether a transaction may be offered in the phase that a reset is in (R287, R288); with EXTEST in force the block carries no
traffic (R518). -/
def Block.mayOffer (b : Block) (t : Txn) : Bool :=
  !b.boot.extest && (if b.rst.closed then t.unlock || b.isDump t.job else !b.rst.draining || b.drains t)

/-- Whether a channel can offer a transaction now: none is on its signals, and it has a tag, buffer beats and a lock for it (R256, R262,
R263). -/
def Block.chanTakes (b : Block) (n : Nat) (t : Txn) : Bool :=
  b.mayOffer t && (b.host.rq.getD n []).isEmpty
  && decide (b.tagsBusy n < 1024) && decide (t.reserve ≤ b.beatsFree n)
  && (!t.lock || !b.lockedRmw || decide (b.locks n < 32))

/-- KIND and AOP of a request header (Table 7.2). -/
def HKind.code : HKind → Nat | .rd => 1 | .wr => 2 | .at8 => 3 | .at16 => 4

/-- RQ_HDR (R257). -/
def Txn.header (t : Txn) : BitVec 128 :=
  let memory := t.kind = .rd || t.kind = .wr
  BitVec.ofNat 128 (put t.kind.code 4 124 + put (b2n t.unc) 1 123 + put (b2n (t.lock && t.kind = .rd)) 1 122
    + put (b2n (t.unlock && t.kind = .wr)) 1 121 + put t.tag 10 111 + put (if memory then t.beats - 1 else 0) 5 106
    + put (if t.kind = .at8 then t.aop else 0) 4 102 + put t.ctx 12 90 + put t.addr 52 0)

/-- Tag bits of word `w` in beat `b` of a transaction (R264). -/
def dataTag (tag b w : Nat) : Nat := (tag % 64 + b) % 64 * 4 + w

/-- Tag and check bits of one DARN word (R264). -/
def wordCheck (tag : Nat) (data : BitVec 256) : Nat :=
  tag + 2 ^ 8 * (Config.darnCheck (BitVec.ofNat 264 (data.toNat + 2 ^ 256 * tag))).toNat

/-- RQ_DCHK of a beat: tag and check bits of its four words. -/
def beatCheck (tag b : Nat) (data : BitVec 1024) : BitVec 108 :=
  BitVec.ofNat 108 (((List.range 4).map fun w => wordCheck (dataTag tag b w) (BitVec.ofNat 256 (data.toNat / 2 ^ (256 * w))) * 2 ^ (27 * w)).sum)

/-- RQ_HCHK or RS_HCHK: check bits of a header padded to 256 bits, with tag bits of zero (R264). -/
def headerCheck {w : Nat} (h : BitVec w) : BitVec 19 := Config.darnCheck (BitVec.ofNat 264 h.toNat)

/-- The transfers of a transaction (R256, R259): one per beat of a write, its header with the first; one for a read or an
atomic, whose operands fill the first bytes of its beat. -/
def Txn.transfers (t : Txn) : List RqXfer :=
  let hdr := t.header
  let n := if t.kind = .wr then t.beats else 1
  (List.range n).map fun i =>
    let lead := if t.kind = .wr then t.wstart - t.addr else 0
    let all := List.replicate lead (0 : Byte) ++ (if t.kind = .rd then [] else t.wdata)
    let data := BitVec.ofNat 1024 (ofBytes (slice all (128 * i) 128))
    let on := fun (k : Nat) => t.kind = .wr && decide (lead ≤ 128 * i + k) && decide (128 * i + k < lead + t.wdata.length)
    { first := i == 0, last := i + 1 == n, hdr := if i == 0 then hdr else 0, hchk := if i == 0 then headerCheck hdr else 0,
      data, dchk := beatCheck t.tag i data,
      be := BitVec.ofNat 128 (((List.range 128).map fun k => if on k then 2 ^ k else 0).sum) }

/-- One transfer of a transaction (R256), counted (Table 7.10): the host takes it. A LOCK read's lock is held from then on (R263,
R272). -/
def Block.moveOne (b : Block) (n : Nat) (t : Txn) (x : RqXfer) (rest : List (Nat × RqXfer)) : Block :=
  let now := { t with taken := t.taken + 1, start := b.time.now }
  let locks := if t.lock then b.host.locks ++
      [({ chan := n, addr := t.wstart, len := t.wlen, ctx := t.ctx, unc := t.unc, tick := b.time.tick } : Lock)]
    else b.host.locks
  let b := { b with host := { b.host with
    out := b.host.out.map fun y => if y.chan == n && y.tag == t.tag then now else y,
    locks, rq := b.host.rq.set n rest, moved := b.host.moved.modify n fun l => if x.first then [x] else l ++ [x],
    ready := b.host.ready.modify n fun r => r.map (· - 1) } }
  let b := if !x.first then b else match t.kind with
    | .rd => b.bump (hc n 0x048)
    | .wr => b.bump (hc n 0x050)
    | _ => b.bump (hc n 0x058)
  if t.kind = .wr then b.bump (hc n 0x068) else b

/-- The transfers that a channel offers take place while the host holds RQ_READY at 1 (R256), by fuel; none with EXTEST in force (R518). -/
def Block.move : Nat → Block → Nat → Block
  | 0, b, _ => b
  | f + 1, b, n =>
    match b.host.rq.getD n [] with
    | [] => b
    | (tag, x) :: rest =>
      match b.host.out.find? fun t => t.chan == n && t.tag == tag with
      | none => b
      | some t => if b.boot.extest || b.host.ready.getD n none == some 0 then b else (b.moveOne n t x rest).move f n

/-- A transaction offered on a channel under a tag (R256, R262); LOCK goes out only while HOST_CAPS says so (R272), the UNLOCK of a lock
that was taken in any case (R168, R263, R287). -/
def Block.sendTxn (b : Block) (n : Nat) (t : Txn) : Block :=
  match b.freeTag n with
  | none => { b with host := { b.host with waiting := b.host.waiting ++ [t] } }
  | some tag =>
    let t := { t with home := b.mapChan t.addr, chan := n, tag, start := b.time.now, lock := t.lock && b.lockedRmw }
    ({ b with host := { b.host with out := b.host.out ++ [t], rq := b.host.rq.set n (t.transfers.map fun x => (tag, x)) } }).move 32 n

/-- A transaction issued on the channel that the map names now (R278), or left waiting behind those that wait for the same channel and
may be offered (order on one channel). The release of a lock waits behind nothing: the range is held against every other access (R263,
R272, R287). -/
def Block.issueTxn (b : Block) (t : Txn) : Block :=
  let wait := { b with host := { b.host with waiting := b.host.waiting ++ [t] } }
  if !t.unlock && b.host.waiting.any fun x => b.mapChan x.addr == b.mapChan t.addr && b.mayOffer x then wait
  else match b.servedBy (b.mapChan t.addr) with
    | none => wait
    | some n => if b.chanTakes n t then b.sendTxn n t else wait

/-- A transaction that is offered, may be no longer and of which the host has taken nothing goes back among those that wait (R287). -/
def Block.withdraw (b : Block) : Block :=
  let back := fun (t : Txn) => t.taken == 0 && !t.dead && !(b.mayOffer t)
  let gone := b.host.out.filter back
  { b with host := { b.host with
    out := b.host.out.filter fun t => !(back t), waiting := gone ++ b.host.waiting,
    rq := b.host.rq.mapIdx fun n l => if gone.any fun t => t.chan == n then [] else l } }

/-- Every waiting transaction that a channel can take now is issued, in order. -/
def Block.hostPump (b : Block) : Block :=
  b.host.waiting.foldl Block.issueTxn { b with host := { b.host with waiting := [] } }

/-- What the host does with a channel's RQ_READY from now on (R256): the transfers that take place by it, and what can be offered then. -/
def Block.hostReady (b : Block) (n : Nat) (r : RqReady) : Block :=
  let set := fun (x : Option Nat) => (({ b with host := { b.host with ready := b.host.ready.set n x } }).move 32 n).hostPump
  match r with
  | .keep => b
  | .high => set none
  | .upTo k => set (some k)

/-- A byte range cut at 4 KiB boundaries of host physical address (R258): (first byte, length), by fuel. -/
def cut4k : Nat → Nat → Nat → List (Nat × Nat)
  | 0, _, _ => []
  | f + 1, a, n =>
    let room := 4096 - a % 4096
    if n ≤ room then [(a, n)] else (a, room) :: cut4k f (a + room) (n - room)

/-- The transactions' byte ranges of an access: an atomic is one. -/
def segsOf (kind : HKind) (addr len : Nat) : List (Nat × Nat) :=
  if kind = .rd || kind = .wr then cut4k (len / 4096 + 2) addr len else [(addr, len)]

/-- An access recorded, none of its transactions offered yet. -/
def Block.openJob (b : Block) (kind : HKind) (addr len : Nat) (jk : JobKind) : Block :=
  let job : Job := { id := b.host.nextJob, kind := jk, addr, len, left := (segsOf kind addr len).length }
  { b with host := { b.host with nextJob := b.host.nextJob + 1, jobs := b.host.jobs ++ [job] } }

/-- The transactions of a recorded access, each on its channel (R258, R270). -/
def Block.offerJob (b : Block) (kind : HKind) (unc lock unlock : Bool) (ctx addr len : Nat) (data : List Byte) (aop id : Nat) : Block :=
  let mk := fun (i : Nat) (x : Nat × Nat) =>
    let (a, n) := x
    let lo := if kind = .rd || kind = .wr then a / 128 * 128 else a
    let hi := (a + n + 127) / 128 * 128
    { kind, unc, lock, unlock, ctx, addr := lo,
      beats := if kind = .rd || kind = .wr then (if hi ≤ lo then 1 else (hi - lo) / 128) else 1,
      aop, wstart := a, wlen := n, wdata := if kind = .wr then slice data (a - addr) n else data, job := id, part := i : Txn }
  ((segsOf kind addr len).mapIdx mk).foldl Block.issueTxn b

/-- An access to host memory (R258, R270): cut into transactions, each on its channel. -/
def Block.access (b : Block) (kind : HKind) (unc lock unlock : Bool) (ctx addr len : Nat) (data : List Byte)
    (aop : Nat) (jk : JobKind) : Block :=
  (b.openJob kind addr len jk).offerJob kind unc lock unlock ctx addr len data aop b.host.nextJob

/-- A read of `len` bytes. -/
def Block.hread (b : Block) (unc : Bool) (ctx addr len : Nat) (jk : JobKind) : Block :=
  b.access .rd unc false false ctx addr len [] 0 jk

/-- Whether two byte ranges meet. -/
def meets (a n c m : Nat) : Bool := decide (a < c + m) && decide (c < a + n)

/-- Whether a host range is held by a reducing store under way (R28, R147): from its start until it has finished. -/
def Block.rangeHeld (b : Block) (addr n : Nat) : Bool :=
  b.dest.pkts.any fun p => p.started && !p.done && meets addr n p.haddr p.span

/-- Whether an access must wait: its range meets a held one, or that of an access held before it (R29, R146, R147, R149). -/
def Block.mustWait (b : Block) (addr n : Nat) : Bool :=
  b.rangeHeld addr n || b.dest.waiters.any fun w => meets addr n w.1 w.2.1

/-- An access held (R147). -/
def Block.holdAccess (b : Block) (addr n : Nat) (w : Waiter) : Block :=
  { b with dest := { b.dest with waiters := b.dest.waiters ++ [(addr, n, w)] } }

/-- A write of bytes: held while a reducing store has its range, or while one held before it waits (R146, R147). -/
def Block.hwrite (b : Block) (unc : Bool) (ctx addr : Nat) (data : List Byte) (jk : JobKind) : Block :=
  if data.isEmpty then b
  else if b.mustWait addr data.length then
    (b.openJob .wr addr data.length jk).holdAccess addr data.length (.write unc ctx data b.host.nextJob)
  else b.access .wr unc false false ctx addr data.length data 0 jk

/-- An uncached write of one of the block's own records (R158, Table 7.5): context 0, nothing follows. -/
def Block.record (b : Block) (addr : Nat) (data : List Byte) : Block := b.hwrite true 0 addr data .record

/-- An atomic (R259): its operand bytes. -/
def Block.hatomic (b : Block) (wide unc : Bool) (ctx addr aop : Nat) (ops : List Byte) (jk : JobKind) : Block :=
  b.access (if wide then .at16 else .at8) unc false false ctx addr (if wide then 16 else 8) ops aop jk

/-! ### Rings whose counts run modulo 2¹⁶ (R129) -/

/-- The free-slot test of R129: PRODUCER − CONSUMER, modulo 2¹⁶, below 2^SIZE; SIZE 0 disables a ring. -/
def Block.ringFree (b : Block) (wBase wCtrl : Nat) : Bool :=
  let size := b.rf wBase 3 0
  size != 0 && decide (subMod 16 (b.rf wCtrl 31 16) (b.rf wCtrl 15 0) < 2 ^ size)

/-- Lap bit of record number `n` in a ring of 2^size slots (R118): 1 on the first lap. -/
def lapBit (n size : Nat) : Nat := 1 - n / 2 ^ size % 2

/-- A record written into the next slot of a ring, which the caller has found free: `mk` is given the lap bit. PHASE and slot go on from
PRODUCER, also where software enables or resizes a ring whose PRODUCER is not 0: R118 says no more than that the first lap has
PHASE 1 (DESIGN CHOICE, log entry 73). -/
def Block.ringPut (b : Block) (wBase wCtrl recBytes : Nat) (mk : Nat → List Word) : Block :=
  let size := b.rf wBase 3 0
  let prod := b.rf wCtrl 31 16
  let addr := b.rf wBase 51 12 * 4096 + recBytes * (prod % 2 ^ size)
  let b := b.hwrite true 0 addr (wordsBytes (mk (lapBit prod size))) (if wBase / 512 == 0x40 then .record else .lasting)
  b.setRf wCtrl 31 16 (prod + 1)

/-- The next part of a record, written once the one before it has been accepted (R326, R488, R491). -/
def Block.ringNext (b : Block) (trace : Bool) (parts : List (Nat × List Byte)) : Block :=
  match parts with
  | [] => b
  | (a, d) :: rest => b.hwrite true 0 a d (.ringPart trace rest)

/-- As `ringPut`, with word `last` of the record, which holds PHASE, written once every other word has been accepted: the host die orders
no two bytes of one write (Table 7.4). -/
def Block.ringPutLast (b : Block) (wBase wCtrl recBytes last : Nat) (trace : Bool) (mk : Nat → List Word) : Block :=
  let size := b.rf wBase 3 0
  let prod := b.rf wCtrl 31 16
  let addr := b.rf wBase 51 12 * 4096 + recBytes * (prod % 2 ^ size)
  let ws := mk (lapBit prod size)
  let b := b.ringNext trace
    (([(0, ws.take last), (last + 1, ws.drop (last + 1)), (last, (ws.drop last).take 1)].filter fun x => !x.2.isEmpty).map
      fun x => (addr + 8 * x.1, wordsBytes x.2))
  b.setRf wCtrl 31 16 (prod + 1)

/-- A record written, or dropped and counted when the ring has no free slot. -/
def Block.ringWrite (b : Block) (wBase wCtrl wLost recBytes : Nat) (mk : Nat → List Word) : Block :=
  if b.ringFree wBase wCtrl then b.ringPut wBase wCtrl recBytes mk else b.bump wLost

/-- The fields of an error record (Table 3.14). -/
structure ErrRec where
  type : Nat
  status : Nat := 0
  reason : Nat := 0
  ctx : Nat := 0
  stream : Nat := 0
  peer : Nat := 0
  rclass : Nat := 0
  detA : Nat := 0
  detB : Nat := 0
  deriving DecidableEq, Repr

/-- An error record's words (Table 3.14). -/
def ErrRec.words (e : ErrRec) (tick phase : Nat) : List Word :=
  [word (put phase 1 63 + put e.type 7 56 + put e.status 4 52 + put e.reason 4 48 + put e.ctx 12 36
    + put e.stream 8 28 + put e.peer 15 13 + put e.rclass 2 11),
   word (put tick 48 0), word e.detA, word e.detB]

/-- The LOSS record that is owed once a slot of the error ring is free again (R129). -/
def Block.lossRecord (b : Block) : Block :=
  if b.req.errDropped != 0 && b.ringFree (fo 0x070) (fo 0x078) then
    let n := b.req.errDropped
    let b := b.ringPut (fo 0x070) (fo 0x078) 32 (({ type := 0x07, detA := n } : ErrRec).words b.time.tick)
    { b with req := { b.req with errDropped := 0 } }
  else b

/-- An error record written, or dropped and counted in FOLD.ERR_LOST (R129, R130). -/
def Block.errRec (b : Block) (e : ErrRec) : Block :=
  let b := b.lossRecord
  if b.ringFree (fo 0x070) (fo 0x078) then (b.ringPut (fo 0x070) (fo 0x078) 32 (e.words b.time.tick)).ivAdd ivErrors 1
  else { b.bump (fo 0x080) with req := { b.req with errDropped := b.req.errDropped + 1 } }

/-- A late packet discarded: counted, and a LATE record written with its context and its TAG or COUNT (R128, Table 3.14). -/
def Block.late (b : Block) (opcode peer rclass ctx info : Nat) : Block :=
  (b.bump (fo 0x090)).errRec { type := 0x06, ctx, peer, rclass, detA := opcode, detB := info }

/-! ### How a command acts -/

/-- A command that acts at any time: `f` on the block; the queue stays. -/
def State.act (s : State) (f : Block → Block) : Host.Outcome State Fault Refusal := .next { s with blk := f s.blk }

/-- A command that acts unless COLD_RST_N is low: a block held in cold reset does nothing (R511). -/
def State.run (s : State) (f : Block → Block) : Host.Outcome State Fault Refusal :=
  s.act fun b => if b.boot.coldHeld then b else f b

/-- A command of the block's traffic, which does nothing either with EXTEST in force: the block carries none (R518). -/
def State.carry (s : State) (f : Block → Block) : Host.Outcome State Fault Refusal :=
  s.run fun b => if b.boot.extest then b else f b

end Sys2Proof.Machine
end

