-- ==== Sys2Proof/Machine/Operands.lean ====
section
/-!
DEFINITION. Fabric addresses, packet headers, descriptor fields and fold-operand fields, and the checks of chapter 2.
-/

namespace Sys2Proof.Machine

/-! ### Fabric addresses (R41 to R45) -/

/-- CLASS of a fabric address (Table 2.1). -/
def faClass (a : Word) : Nat := fld a 63 60
/-- Chip ID of a fabric address (R42). -/
def faChip (a : Word) : Nat := fld a 59 45
/-- Window offset of a fabric address. -/
def faOff (a : Word) : Nat := fld a 40 0

/-- A fabric address from its parts. -/
def mkFa (cls chip off : Nat) : Word := word (put cls 4 60 + put chip 15 45 + put off 41 0)

/-- Whether an address has the form of Table 2.3 for its class, the class included (R43, R44). -/
def faForm (a : Word) : Bool :=
  fld a 44 41 == 0 &&
  (match faClass a with
   | 0x0 => true
   | 0x1 => fld a 40 19 == 0 && fld a 2 0 == 0
   | 0x2 => fld a 40 19 == 0 && fld a 2 0 == 0
   | 0xE => fld a 59 57 == 0
   | 0xF => fld a 59 45 == 0
   | _ => false)

/-- A multicast group's entry (Table 8.4). -/
def Block.groupEntry (b : Block) (g : Nat) : Word := Tbl.get 0 b.fwd.groups g

/-- Whether a coordinate lies in the cyclic range LO to HI (R313). -/
def inRange (lo hi x : Nat) : Bool :=
  if lo ≤ hi then decide (lo ≤ x) && decide (x ≤ hi) else decide (lo ≤ x) || decide (x ≤ hi)

/-- LO and HI of a group entry on an axis (Table 8.4). -/
def geLo (e : Word) (axis : Nat) : Nat := fld e (10 * axis + 4) (10 * axis)
def geHi (e : Word) (axis : Nat) : Nat := fld e (10 * axis + 9) (10 * axis + 5)

/-- Whether a chip is a member of a group entry (R80, R313). -/
def inBox (e : Word) (chip : Nat) : Bool :=
  bit e 63 && (List.range 3).all fun x => inRange (geLo e x) (geHi e x) (coord chip x)

/-- Members of a group, or of the broadcast (R80, R113, R313). -/
def Block.memberCount (b : Block) (bcast : Bool) (g : Nat) : Nat :=
  if bcast then b.axisLen 0 * b.axisLen 1 * b.axisLen 2
  else
    let e := b.groupEntry g
    ((List.range 3).map fun x =>
      ((List.range (b.axisLen x)).filter fun k => inRange (geLo e x) (geHi e x) k).length).foldl (· * ·) 1

/-- The address checks at admission (R45): status and reason of the first rule broken, for an address used by an
operation that may name a group (`mc`) and a counter (`ctr`). -/
def Block.admitAddr (b : Block) (a : Word) (mc ctr : Bool) : Nat × Nat :=
  if !(faForm a) then (stABSENT, 1)
  else if faClass a ≤ 2 && !(b.chipInSeal (faChip a)) then (stABSENT, 2)
  else if faClass a == 0xE && !(bit (b.groupEntry (fld a 56 45)) 63) then (stABSENT, 2)
  else if faClass a == 2 then (stDENIED, 0xC)
  else if decide (0xE ≤ faClass a) && !mc then (stDENIED, 0xE)
  else if faClass a == 1 && !ctr then (stDENIED, 0xE)
  else (0, 0)

/-! ### Packet headers (R99 to R104) -/

/-- OPCODE of a header slot. -/
def hOp (h : Slot) : Nat := fld h 127 122
/-- DST of a header slot (Table 3.5). -/
def hDst (h : Slot) : Nat := fld h 119 105
/-- SRC_CHIP of a header slot. -/
def hSrc (h : Slot) : Nat := fld h 104 90
/-- SRC_CTX of a request header. -/
def hCtx (h : Slot) : Nat := fld h 89 78
/-- WIRE_KEY of a request header. -/
def hKey (h : Slot) : Nat := fld h 77 62
/-- TAG of a header that carries one (Tables 3.7, 3.8); COUNTER in posted requests. -/
def hTag (h : Slot) : Nat := fld h 15 0

/-- Whether an opcode is one of the _MC forms (Table 3.6). -/
def isMC (op : Nat) : Bool := op == 0x0A || op == 0x0B || op == 0x0C

/-- Whether a packet is carried along the tree of R314: an _MC request, FW_CHUNK or FW_ACTIVATE (R429). -/
def treeOp (op : Nat) : Bool := isMC op || op == 0x31 || op == 0x32

/-- Traffic class of an opcode (Table 3.6, R337: a reserved opcode from 0x01 to 0x1F is carried as TC1). -/
def opClass (op : Nat) : Nat :=
  if op == 0x02 || op == 0x03 || op == 0x07 || op == 0x0A || op == 0x0B then 3
  else if op == 0x04 || op == 0x08 || op == 0x0C then 4
  else if op == 0x05 || op == 0x09 then 5
  else if decide (0x20 ≤ op) && decide (op ≤ 0x2F) then 2
  else if decide (0x30 ≤ op) && decide (op ≤ 0x37) then 0
  else if decide (0x38 ≤ op) && decide (op ≤ 0x3E) then 6
  else 1

/-- Whether a request opcode is reserved (Table 3.6). -/
def reservedReq (op : Nat) : Bool := op == 0x0F || (decide (0x1B ≤ op) && decide (op ≤ 0x1F)) || op == 0

/-- Whether a TC2 opcode is reserved (Table 3.6). -/
def reservedResp (op : Nat) : Bool := decide (0x26 ≤ op) && decide (op ≤ 0x2F)

/-- Whether an opcode is a non-posted request (Table 3.6). -/
def nonPosted (op : Nat) : Bool :=
  op == 0x01 || op == 0x06 || op == 0x0D || op == 0x0E || (decide (0x10 ≤ op) && decide (op ≤ 0x1A))

/-- Whether an opcode is a posted request (Table 3.6). -/
def posted (op : Nat) : Bool := [0x02, 0x03, 0x04, 0x05, 0x0A, 0x0B, 0x0C].contains op

/-- Data slots that a header announces (Tables 3.6, 3.7, 3.8). -/
def hSlots (h : Slot) : Nat :=
  let op := hOp h
  if op == 0x02 || op == 0x0A then fld h 24 17 + 1
  else if op == 0x03 || op == 0x0B || op == 0x05 || op == 0x0E then 1
  else if op == 0x04 || op == 0x0C then 4 * (fld h 26 21 + 1)
  else if decide (0x10 ≤ op) && decide (op ≤ 0x19) then 1
  else if op == 0x1A then 2
  else if op == 0x20 then fld h 77 70 + 1
  else if decide (0x30 ≤ op) && decide (op ≤ 0x3E) then fld h 24 17
  else 0

/-- Window offset that a request header names (Table 3.7). -/
def hOff (h : Slot) : Nat :=
  let op := hOp h
  if op == 0x04 || op == 0x0C then fld h 61 27 * 64
  else if decide (0x10 ≤ op) && decide (op ≤ 0x1A) then fld h 61 24 * 8
  else if op == 0x03 || op == 0x0B then fld h 61 25 * 16 + fld h 24 21
  else if op == 0x01 || op == 0x02 || op == 0x0A then fld h 61 25 * 16
  else fld h 61 46 * 8

/-- Data bytes of a posted request (R103), bytes asked for by a LOAD, request bytes of the others (R36). -/
def hBytes (h : Slot) : Nat :=
  let op := hOp h
  if op == 0x02 || op == 0x0A || op == 0x01 then 16 * (fld h 24 17 + 1)
  else if op == 0x03 || op == 0x0B then fld h 20 17 + 1 - fld h 24 21
  else if op == 0x04 || op == 0x0C then 64 * (fld h 26 21 + 1)
  else if op == 0x1A then 16 else 8

/-- Whether a packet is a request of 64 bytes or less (R36). R36 lists no request bytes for a reserved opcode carried as TC1: 8 are
taken (DESIGN CHOICE, log entry 63). -/
def isSmall (h : Slot) : Bool :=
  let c := opClass (hOp h)
  (c == 1 || c == 3 || c == 4 || c == 5) && !([0x07, 0x08, 0x09].contains (hOp h)) && decide (hBytes h ≤ 64)

/-- A request header (Table 3.5). -/
def mkReq (op epoch dst src ctx key low : Nat) : Slot :=
  BitVec.ofNat 128 (put op 6 122 + put epoch 1 120 + put dst 15 105 + put src 15 90 + put ctx 12 78 + put key 16 62
    + put low 62 0)

/-- A TC2 header (R101, Table 3.8). -/
def mkResp (op epoch dst src low : Nat) : Slot :=
  BitVec.ofNat 128 (put op 6 122 + put epoch 1 120 + put dst 15 105 + put src 15 90 + put low 90 0)

/-- The epoch that local injection of a class carries (Table 8.8, R309): the current set once switched. -/
def Block.injectEpoch (b : Block) (cls : Nat) : Nat :=
  if bitN b.fwd.switched cls then b.fwd.current else 1 - b.fwd.current

/-- A packet's coming to a queue noted with its tick, and its leaving it (Table 13.5). -/
def Block.noteIn (b : Block) (p : Packet) : Block := { b with obs := { b.obs with arrived := b.obs.arrived ++ [(p, b.time.tick)] } }
def Block.noteOut (b : Block) (p : Packet) : Block :=
  { b with obs := { b.obs with arrived := b.obs.arrived.eraseP fun x => x.1 == p } }

/-- A packet handed to the forwarding core, or straight to this chip's own destination side or requester (R46). -/
def Block.inject (b : Block) (p : Packet) : Block :=
  let b := (if isSmall p.hdr then b.bump (cn 0x088) else b).noteIn p
  if !(treeOp (hOp p.hdr)) && hDst p.hdr == b.chipId then
    { b with dest := { b.dest with inbox := b.dest.inbox ++ [p] } }
  else { b with fwd := { b.fwd with inject := b.fwd.inject ++ [p] } }

/-! ### The checks of chapter 2 -/

/-- F(root, source chip, source context); zero until the root has been written (R58). -/
def Block.fKey (b : Block) (chip ctx : Nat) : Nat :=
  match b.keyRoot with
  | none => 0
  | some r => (Config.keyF r chip ctx).toNat

/-- Whether a wire key matches an entry's key (R58). -/
def Block.keyOk (b : Block) (key wire chip ctx : Nat) : Bool := wire == key ^^^ b.fKey chip ctx

/-- Whether a context is in a Rinse (R77). -/
def Block.inRinse (b : Block) (c : Nat) : Bool := b.rst.rinsing && b.rst.rinse == some c

/-- A Segment Map entry (R51). -/
def Block.seg (b : Block) (i : Nat) : Word := Tbl.get 0 b.segmap i

/-- The DARN word of an entry: bank (index mod 64), group of four positions (R47, R48). -/
def segWord (i : Nat) : Nat := i % 64 + 64 * (i / 64 / 4)

/-- Whether an entry's bank is good (R49). -/
def Block.bankGood (b : Block) (i : Nat) : Bool := bit (b.peek (sg 0x070)) (i % 64)

/-- Host physical address of a window offset under an entry (R52). -/
def Block.hpa (b : Block) (e : Word) (off : Nat) : Nat :=
  b.rf (sg 0x058) 1 0 * 2 ^ 50 + fld e 28 0 * 2 ^ 21 + off % 2 ^ 21

/-- What a check is asked about. -/
structure Ask where
  off : Nat
  n : Nat
  /-- Permission bits of the entry that must all be 1 (Table 2.6). -/
  perms : List Nat
  chip : Nat
  ctx : Nat
  key : Nat
  ctr : Nat := 0
  deriving DecidableEq, Repr

/-- Steps 3 to 7 of Table 2.7: a granule's entry as one read finds it (R63). -/
def Block.granule (b : Block) (i : Nat) : Granule :=
  let e := b.seg i
  let found := fun (s r : Nat) => ({ i, entry := e, status := s, reason := r, base := b.hpa e 0 } : Granule)
  if !(b.bankGood i) then found stABSENT 3
  else if b.segBad.contains (segWord i) then found stPOISON 4
  else if b.inRinse (fld e 56 45) then found stRINSED 7
  else if !(bit e 63) then found stABSENT 5
  else if fld e 62 61 == 2 then found stDENIED 6
  else found 0 0

/-- Steps 8 to 11 of Table 2.7 on an entry that has been read (R63). -/
def Block.checkOn (b : Block) (x : Granule) (q : Ask) : Check :=
  let e := x.entry
  let g := Tbl.get 0 b.groups (q.ctr / 64)
  let fail := fun (s r : Nat) => ({ status := s, reason := r } : Check)
  if x.status != 0 then fail x.status x.reason
  else if !(b.keyOk (fld e 44 29) q.key q.chip q.ctx) then fail stDENIED 8
  else if q.perms.any fun p => !(bit e p) then fail stDENIED 9
  else if 2 ^ 21 < q.off % 2 ^ 21 + q.n then fail stDENIED 0xA
  else if q.ctr != 0 && (b.groupBad.contains (q.ctr / 64) || !(bit g 63) || fld g 56 45 != fld e 56 45) then
    fail stDENIED 0xB
  else { status := 0, reason := 0, haddr := x.base + q.off % 2 ^ 21, unc := fld e 62 61 == 1 }

/-- Steps 3 to 11 of Table 2.7 (R61). -/
def Block.segCheck (b : Block) (q : Ask) : Check := b.checkOn (b.granule (q.off / 2 ^ 21)) q

/-- The checks of a class 0x1 request on its group entry (R69); `perm` is the permission bit. -/
def Block.ctrCheck (b : Block) (ctr perm chip ctx key : Nat) : Check :=
  let g := Tbl.get 0 b.groups (ctr / 64)
  let fail := fun (s r : Nat) => ({ status := s, reason := r } : Check)
  if b.groupBad.contains (ctr / 64) then fail stPOISON 4
  else if b.inRinse (fld g 56 45) then fail stRINSED 7
  else if !(bit g 63) then fail stABSENT 5
  else if !(b.keyOk (fld g 44 29) key chip ctx) then fail stDENIED 8
  else if !(bit g perm) then fail stDENIED 9
  else { status := 0, reason := 0 }

/-- Window word of the failure counter of a status (Table 2.10). -/
def failCounter (status : Nat) : Nat :=
  if status == stABSENT then sg 0x0A8 else if status == stDENIED then sg 0x0B0
  else if status == stRINSED then sg 0x0B8 else sg 0x0C0

/-- A failed check counted by status, and captured while FAIL_INFO.CAPTURED is 0 (R67). -/
def Block.failed (b : Block) (status reason ctx chip op : Nat) (addr : Word) : Block :=
  let b := b.bump (failCounter status)
  if b.rf (sg 0x098) 63 63 == 1 then b
  else (b.poke (sg 0x098) (word (2 ^ 63 + put status 4 59 + put reason 4 55 + put ctx 12 43 + put chip 15 28
    + put op 8 20))).poke (sg 0x0A0) addr

/-- A check of the issuing chip on one of a command's own addresses (R97): counted and captured as R67 gives. No packet names LCOUNTER,
so step 11 of Table 2.7 asks nothing of it (DESIGN CHOICE, log entry 73). -/
def Block.localCheck (b : Block) (ctx key off n : Nat) (perms : List Nat) : Block × Check :=
  let c := b.segCheck { off, n, perms, chip := b.chipId, ctx, key }
  if c.status == 0 then (b, c) else (b.failed c.status c.reason ctx b.chipId 0 (mkFa 0 b.chipId off), c)

/-- A range of the issuing chip's window cut at 2 MiB boundaries (R97), by fuel. -/
def cut2m : Nat → Nat → Nat → List (Nat × Nat)
  | 0, _, _ => []
  | f + 1, a, n =>
    let room := 2 ^ 21 - a % 2 ^ 21
    if n ≤ room then [(a, n)] else (a, room) :: cut2m f (a + room) (n - room)

/-! ### Descriptors (Tables 3.3, 3.4) -/

/-- Word `i` of a descriptor. -/
def dw (d : List Word) (i : Nat) : Word := d.getD i 0
def dOp (d : List Word) : Nat := fld (dw d 0) 63 56
def dVersion (d : List Word) : Nat := fld (dw d 0) 55 52
def dFence (d : List Word) : Bool := bit (dw d 0) 51
def dQuiet (d : List Word) : Bool := bit (dw d 0) 50
def dNoResult (d : List Word) : Bool := bit (dw d 0) 49
def dCounter (d : List Word) : Nat := fld (dw d 0) 47 32
def dDkey (d : List Word) : Nat := fld (dw d 0) 31 16
def dSkey (d : List Word) : Nat := fld (dw d 0) 15 0
def dDst (d : List Word) : Word := dw d 2
def dSrc (d : List Word) : Word := dw d 3
def dLcounter (d : List Word) : Nat := fld (dw d 4) 63 48
def dAop (d : List Word) : Nat := fld (dw d 4) 47 40
def dLength (d : List Word) : Nat := fld (dw d 4) 39 0
def dTimeout (d : List Word) : Nat := if dVersion d == 2 then fld (dw d 8) 63 48 else 0
def dProfile (d : List Word) : Nat := fld (dw d 8) 47 44

/-- WRING_WIRE as an MX format code (Table 3.4): 0 MXFP8 E4M3, 1 MXFP8 E5M2, 2 MXFP4. -/
def wringWire (x : Nat) : Nat := if x == 0 then 5 else if x == 1 then 6 else 9
/-- WRING_SRC as a format code: 0 bfloat16, 1 binary32. -/
def wringSrc (x : Nat) : Nat := if x == 0 then 2 else 0

/-- The fields of a descriptor that are reserved for its opcode and must be zero (R96, R98): bits of word 0, then
whole or partial words, as (word, high bit, low bit). -/
def dReserved (op ver : Nat) : List (Nat × Nat × Nat) :=
  let uses := fun (l : List Nat) => l.contains op
  (if uses [0x04, 0x11] then [] else [(0, 49, 49)]) ++ [(0, 48, 48)]
  ++ (if uses [0x01, 0x02, 0x10, 0x14] then [] else [(0, 47, 32)])
  ++ (if uses [0x00, 0x15] then [(0, 31, 16)] else [])
  ++ (if uses [0x01, 0x03, 0x10, 0x13, 0x14] || uses [0x04, 0x11] then [] else [(0, 15, 0)])
  ++ (if uses [0x00, 0x13, 0x15] then [(2, 63, 0)] else [])
  ++ (if uses [0x00, 0x02, 0x12, 0x13, 0x15] then [(3, 63, 0)] else [])
  ++ (if uses [0x03] || (uses [0x04, 0x11]) then [] else [(4, 63, 48)])
  ++ (if uses [0x04] then [] else [(4, 47, 40)])
  ++ (if uses [0x02] then [] else
      (if uses [0x04, 0x11, 0x12] then [] else [(5, 63, 0)]) ++ (if uses [0x04, 0x11] then [] else [(6, 63, 0)])
      ++ [(7, 63, 0)])
  ++ (if ver == 2 then
      (if uses [0x10, 0x14] then [] else [(8, 47, 44)]) ++ (if uses [0x14] then [] else [(8, 43, 40)]) ++ [(8, 39, 0)]
      ++ (if uses [0x14] then [] else if uses [0x15] then [(9, 63, 48)] else if uses [0x13] then [(9, 63, 14)]
          else [(9, 63, 0)])
      ++ (if uses [0x11] then [(12, 63, 0), (13, 63, 0), (14, 63, 0), (15, 63, 0)]
          else if uses [0x13] then [] else
          [(10, 63, 0), (11, 63, 0), (12, 63, 0), (13, 63, 0), (14, 63, 0), (15, 63, 0)])
    else [])

/-- Whether a descriptor's reserved fields are all zero. -/
def dReservedZero (d : List Word) : Bool :=
  (dReserved (dOp d) (dVersion d)).all fun (w, hi, lo) => fld (dw d w) hi lo == 0

end Sys2Proof.Machine
end

