-- ==== Sys2Proof/Machine/Trace.lean ====
section
/-!
DEFINITION. The event trace (§13.4): records, their limit, loss records, and records sent to a collector.
-/

namespace Sys2Proof.Machine

/-- Thousandths of fabric-clock cycles in a tick period (R492): period in ns × FABCLK in MHz. -/
def Block.tickCycles (b : Block) : Nat := b.rf wPeriod 20 0 * b.rf (regAt 0x01 0x840) 51 40

/-- A TC6 packet with one 32-byte record for the collector (R325, Table 8.11). -/
def Block.toCollector (b : Block) (op : Nat) (words : List Word) : Block :=
  b.inject { hdr := mkReq op (b.injectEpoch 6) (b.rf (tr 0x820) 14 0) b.chipId 0 0 (put 2 8 17),
             data := bytesSlots (wordsBytes words) }

/-- Words of a trace record (Table 13.3). -/
def traceWords (phase typ ctx subject time a d : Nat) : List Word :=
  [word (put phase 1 63 + put typ 7 56 + put ctx 12 44 + put subject 8 36), word time, word a, word d]

/-- Trace records in the queue on the block (R493): those of which the host has taken nothing yet (DESIGN CHOICE, log entry 76). -/
def Block.traceQueued (b : Block) : Nat :=
  (b.host.jobs.filter fun j => match j.kind with
    | .ringPart true (_ :: _) => !(b.host.out.any fun t => t.job == j.id && t.taken != 0)
    | _ => false).length

/-- Whether a trace record can be written now: the tick's limit and, where it goes to the ring, a free slot and room in the queue (R492,
R493). -/
def Block.traceRoom (b : Block) : Bool :=
  decide (b.obs.trCount < 96 * b.tickCycles / 100000)
  && (bit (b.peek (tr 0x820)) 62 || (b.ringFree (tr 0x040) (tr 0x048) && decide (b.traceQueued < 256)))

/-- One trace record written or sent (R325, R491). -/
def Block.tracePut (b : Block) (typ ctx subject time a d : Nat) : Block :=
  let b := { b with obs := { b.obs with trCount := b.obs.trCount + 1 } }
  (if bit (b.peek (tr 0x820)) 62 then b.toCollector 0x39 (traceWords 0 typ ctx subject time a d)
   else b.ringPutLast (tr 0x040) (tr 0x048) 32 0 true fun ph => traceWords ph typ ctx subject time a d).bump (tr 0x078)

/-- An event of the trace: recorded when its type is enabled, else nothing; dropped and counted without room; a LOSS
record comes first after a drop (R491 to R493). -/
def Block.trace (b : Block) (typ ctx subject a d : Nat) : Block :=
  let c := b.peek (tr 0x048)
  if !(bit c 63) || !(bit c (47 + typ)) then b else
  let drop := fun (b : Block) =>
    { b.bump (tr 0x080) with obs := { b.obs with trLost := b.obs.trLost + 1,
                                                 trLostAt := if b.obs.trLost == 0 then b.time.now else b.obs.trLostAt } }
  if !b.traceRoom then drop b else
  let b := if b.obs.trLost == 0 then b else
    let b := b.tracePut 0x7F 0 0 b.time.now b.obs.trLost b.obs.trLostAt
    { b with obs := { b.obs with trLost := 0 } }
  if !b.traceRoom then drop b else b.tracePut typ ctx subject b.time.now a d

end Sys2Proof.Machine
end

