-- ==== Sys2Proof/Machine/Patch.lean ====
section
/-!
DEFINITION. The patch map and the features offered (§11.6, §15.4): what each publication writes.
-/

namespace Sys2Proof.Machine

/-- The variant in force: 0 SK6-F, 1 SK6-E, 2 SK6-M (R444, Table 15.9). -/
def Block.variant (b : Block) : Nat := b.rf wCode 63 60

/-- Lane rates within the fused limit: bit 0 56, bit 1 112, bit 2 224 Gb/s (Table 0.2). -/
def Block.fusedRates (b : Block) : Nat := if decide (b.variant < 2) then 7 else 3

/-- Fused fabric clock in MHz (Table 0.2). -/
def Block.fusedMhz (b : Block) : Nat := if b.variant == 0 then 2100 else if b.variant == 1 then 1600 else 1800

/-- Fused power cap in 0.1 W (Table 0.2). -/
def Block.fusedCap (b : Block) : Nat := if b.variant == 0 then 960 else if b.variant == 1 then 800 else 580

/-- FOM_MIN of a mode on a port (R401). -/
def Block.fomMin (b : Block) (p mode : Nat) : Nat := if mode == 1 then b.rf (ln p 0x050) 47 32 else b.rf (ln p 0x050) 63 48

/-- LANE_HEALTH of a lane (Table 11.8). -/
def Block.laneHealth (b : Block) (p mode : Nat) (x : LaneInfo) : Nat :=
  if !x.measured then 3
  else if x.fom < b.fomMin p mode then 2
  else if x.fom < b.fomMin p mode + b.rf (ln p 0x050) 31 16 then 1 else 0

/-- PATCH2 + *p* (Table 11.8, R524). -/
def Block.patchPort (b : Block) (p : Nat) : Word :=
  let q := b.ports.getD p {}
  let l := b.lanes.getD p {}
  let st := b.peek (ln p 0x040)
  let state := if b.rf wSealLeft 63 63 == 1 && b.axisLen (p / 2) == 1 then 3
    else if bitN b.boot.portFailed p then 4
    else if q.st == 5 then 0
    else if q.st == 3 then 5
    else if q.st == 0 && l.powered && fld st 53 50 != 0 then 2 else 1
  word (put state 4 60 + put (fld st 59 58) 2 58 + put q.mode 2 56 + put (fld st 15 0) 16 40
    + ((l.lanes.mapIdx fun k x => put (b.laneHealth p l.mode x) 2 (2 * k)).sum))

/-- Mask of the engines that are good: neither fused off nor failed (Table 11.8). -/
def Block.enginesGood (b : Block) : Nat :=
  ((List.range 12).map fun e => if bitN b.boot.fuseEngines e || bitN b.boot.failed e then 0 else 2 ^ e).sum

/-- FEATURES_OFFERED as the patch map, the variant and HC0.HOST_CAPS give it (Table 15.8, R542). -/
def Block.offer (b : Block) : Block :=
  b.poke wFeatOffered (word (1 + 2 + put (b.rf wPatch0 19 19) 1 2 + 8 + 0x1D00 + put (b2n (decide (b.variant < 2))) 1 9
    + put (b2n (b.rf wPatch0 11 0 == 0xFFF)) 1 13 + put (b.rf (hc 0 0x828) 0 0) 1 14))

/-- An engine. -/
def Block.engine (b : Block) (e : Nat) : Engine := b.mangle.engines.getD e {}

/-- Whether the patch map marks an engine good (R30). -/
def Block.engineGood (b : Block) (e : Nat) : Bool := bit (b.peek wPatch0) e

/-- Whether an engine's QUIESCE bit is set (R211). -/
def Block.engineQuiesced (b : Block) (e : Nat) : Bool := bit (b.peek (mg e 0x010)) 1

/-- STATE of MANGLEn.STATUS (Table 5.13). -/
def Block.engineState (b : Block) (e : Nat) : Nat :=
  let g := b.engine e
  if g.loading then 4
  else if g.failed then 5
  else if !(b.engineGood e) then 3
  else if g.held.isSome then 1
  else if b.engineQuiesced e || g.resetting then 2 else 0

/-- STATE of the sequencer, coded as an engine's: quiesced while it is under reset, failed once its programs have failed (DESIGN CHOICE,
log entry 30). -/
def Block.seqState (b : Block) : Nat :=
  if b.rst.engines.contains 12 then 2 else if b.boot.published && !b.boot.seqGood then 5 else 0

/-- STATE of every engine, and of the sequencer as 12. -/
def Block.engineStates (b : Block) : List Nat := (List.range 12).map b.engineState ++ [b.seqState]

/-- What `go` does, with an ENGINE_STATE event for each engine, and for the sequencer, whose STATE it changes (Table 13.4). -/
def Block.tracing (b : Block) (go : Block → Block) : Block :=
  let old := b.engineStates
  let b := go b
  let new := b.engineStates
  (List.range 13).foldl (fun b e =>
    if old.getD e 0 == new.getD e 0 then b else b.trace 0x06 0 e (new.getD e 0) (old.getD e 0)) b

/-- An engine changed. -/
def Block.setEngine (b : Block) (e : Nat) (f : Engine → Engine) : Block :=
  b.tracing fun b => { b with mangle := { b.mangle with engines := b.mangle.engines.modify e f } }

/-- The patch map published: all eight words at once, GENERATION one more (R441, R442, R542). -/
def Block.publish (b : Block) : Block := b.tracing fun b =>
  let p0 := word (put (b.rf wPatch0 63 48 + 1) 16 48 + put b.boot.fuseEngines 12 32 + put b.boot.failed 12 20
    + put (b2n b.boot.seqGood) 1 19 + put b.enginesGood 12 0)
  let b := (b.poke wPatch0 p0).poke (regAt 0x01 0x048) (b.peek (sg 0x070))
  let b := (List.range 6).foldl (fun b p => b.poke (wPatchPort p) (b.patchPort p)) b
  b.offer

/-- A further publication, once step 9 has made the first (R442). -/
def Block.republish (b : Block) : Block := if b.boot.published then b.publish else b

end Sys2Proof.Machine
end

