-- ==== Sys2Proof/Machine/Requester.lean ====
section
/-!
DEFINITION. The transaction engine (chapter 3): streams, admission, cutting, issue, receipts, flows, completion.
-/

namespace Sys2Proof.Machine

/-! ### Streams (§3.1) -/

/-- A stream's state. -/
def Block.stream (b : Block) (s : Nat) : Stream := b.req.streams.getD s {}

/-- A stream's state changed. -/
def Block.setStream (b : Block) (s : Nat) (f : Stream → Stream) : Block :=
  { b with req := { b.req with streams := b.req.streams.modify s f } }

/-- Word `i` of a stream's accepted entry. -/
def Block.entryWord (b : Block) (s i : Nat) : Word :=
  match (b.stream s).entry with | none => 0 | some e => e.getD i 0

/-- The context of every command of a stream (R86). -/
def Block.streamCtx (b : Block) (s : Nat) : Nat := fld (b.entryWord s 3) 43 32

/-- Whether a stream's enable bit is 1 (R85). -/
def Block.enabled (b : Block) (s : Nat) : Bool := bit (b.peek (fo (0x048 + 8 * (s / 64)))) (s % 64)

/-- CQ_TAIL and CR_HEAD of a stream's doorbell (R87). -/
def Block.cqTail (b : Block) (s : Nat) : Nat := b.rf (fo (0x800 + 8 * s)) 15 0
def Block.crHead (b : Block) (s : Nat) : Nat := b.rf (fo (0x800 + 8 * s)) 31 16

/-- The block clears a stream's enable bit: it admits nothing more (R85, R88). -/
def Block.disableStream (b : Block) (s : Nat) : Block :=
  (b.setRf (fo (0x048 + 8 * (s / 64))) (s % 64) (s % 64) 0).setStream s fun x => { x with ready := false, fetched := [] }

/-- A stream's bit goes from 0 to 1: counts and, unless it has been written since, the doorbell restart at 0 (R87). -/
def Block.startStream (b : Block) (s : Nat) (rung : Bool) : Block :=
  let b := if rung then b else b.poke (fo (0x800 + 8 * s)) 0
  (b.setRf (fo (0x048 + 8 * (s / 64))) (s % 64) (s % 64) 1).setStream s fun x => { gen := x.gen, entry := x.entry, reserved := x.reserved }

/-- A 1 written to a stream's enable bit that is 0: its entry is read (R84, R85). While a Rinse of some context runs, only the entry says
whether the stream is of that context: the bit changes once it is here (Table 12.2; DEDUCED, log entry 64). `write` numbers the write. -/
def Block.enableStream (b : Block) (s write : Nat) : Block :=
  let b := b.setStream s fun x => { x with gen := x.gen + 1 }
  let b := match (if b.rst.rinsing then b.rst.rinse else none) with
    | none => b.startStream s false
    | some c => b.setStream s fun x => { x with asking := some { ctx := c, write } }
  b.hread true 0 (b.rf (fo 0x040) 51 14 * 2 ^ 14 + 64 * s) 64 (.streamEntry s (b.stream s).gen)

/-- Descriptor size of a stream's queue (R94). -/
def Block.slotBytes (b : Block) (s : Nat) : Nat := if fld (b.entryWord s 3) 31 28 == 2 then 128 else 64

/-- Descriptors up to CQ_TAIL asked for, at most 64 ahead of admission (R87; the depth is DESIGN CHOICE, log entry 19), by fuel. A
doorbell that moves CQ_TAIL back asks for no more; what was asked for is kept (DESIGN CHOICE, log entry 64). -/
def Block.fetch : Nat → Block → Nat → Block
  | 0, b, _ => b
  | f + 1, b, s =>
    let x := b.stream s
    if !x.ready || !(b.enabled s) || decide (subMod 16 (b.cqTail s) x.head ≤ subMod 16 x.asked x.head) || decide (64 ≤ x.fetched.length + subMod 16 x.asked x.head)
    then b
    else
      let size := fld (b.entryWord s 0) 3 0
      let addr := fld (b.entryWord s 0) 51 12 * 4096 + b.slotBytes s * (x.asked % 2 ^ size)
      let b := b.hread true 0 addr (b.slotBytes s) (.descriptors s x.asked 1 x.gen)
      Block.fetch f (b.setStream s fun y => { y with asked := (y.asked + 1) % 2 ^ 16 }) s

/-- The head report (R89): head count in [15:0], records written in [31:16]. -/
def Block.headReport (b : Block) (s : Nat) : Block :=
  let x := b.stream s
  let addr := fld (b.entryWord s 2) 51 3 * 8
  (b.record addr (toBytes 8 (put x.head 16 0 + put x.written 16 16))).setStream s fun y => { y with reported := y.head }

/-- Whether a doorbell write of a stream with an accepted entry is in range (R88). -/
def Block.doorbellOk (b : Block) (s : Nat) (v : Word) : Bool :=
  let x := b.stream s
  decide (subMod 16 (fld v 15 0) x.head ≤ 2 ^ fld (b.entryWord s 0) 3 0)
  && decide (subMod 16 x.written (fld v 31 16) ≤ 2 ^ fld (b.entryWord s 1) 3 0)

/-- A doorbell out of range (R88): counts are kept, the stream is disabled, an error record written. -/
def Block.doorbellBad (b : Block) (s : Nat) (v : Word) : Block :=
  let x := b.stream s
  (b.disableStream s).errRec { type := 0x01, ctx := b.streamCtx s, stream := s, detA := v.toNat,
                               detB := put x.head 16 0 + put x.written 16 16 }

/-- The 1 written for a stream of the context being Rinsed has had no effect: the write is counted, once for all its streams (R538, Table
12.2). -/
def Block.voidEnable (b : Block) (s : Nat) (k : EntryAsk) : Block :=
  let b := b.setStream s fun x => { x with asking := none }
  if k.write == 0 then b
  else
    let off := fun (x : Stream) => { x with asking := x.asking.map fun y => if y.write == k.write then { y with write := 0 } else y }
    ({ b with req := { b.req with streams := b.req.streams.map off } }).pageErr 0x40 2 ((0x048 + 8 * (s / 64)) / 8)

/-- The stream-table entry has been read under the enable in force (R85, §3.9). A stream of the context in whose Rinse the enable was
written stays disabled, and one whose context's Rinse started meanwhile is disabled with it (Tables 12.1, 12.2). -/
def Block.entryRead (b : Block) (s gen : Nat) (data : List Byte) (bad : Bool) : Block :=
  let x := b.stream s
  if x.gen != gen || !(b.enabled s || x.asking.isSome) then b else
  let ctx := fld (word (ofBytes (slice data 24 8))) 43 32
  if !bad && (x.asking.map fun k => k.ctx) == some ctx then (x.asking.map (b.voidEnable s)).getD b else
  let b := match x.asking with | some k => b.startStream s k.rung | none => b
  if !bad && x.rinsed == some ctx then b.disableStream s else
  let addr := b.rf (fo 0x040) 51 14 * 2 ^ 14 + 64 * s
  let ws := (List.range 8).map fun i => word (ofBytes (slice data (8 * i) 8))
  let ok := fun (v : Nat) => decide (4 ≤ v) && decide (v ≤ 15)
  let ver := fld (ws.getD 3 0) 31 28
  if bad then (b.disableStream s).errRec { type := 0x02, status := stPOISON, stream := s, detA := addr }
  else if !(ok (fld (ws.getD 0 0) 3 0)) || !(ok (fld (ws.getD 1 0) 3 0)) || (ver != 1 && ver != 2) then
    (b.disableStream s).errRec { type := 0x08, ctx := fld (ws.getD 3 0) 43 32, stream := s, detA := addr }
  else
    let b := b.setStream s fun x => { x with entry := some ws, ready := true }
    let v := b.peek (fo (0x800 + 8 * s))
    if b.doorbellOk s v then Block.fetch 64 b s else (b.poke (fo (0x800 + 8 * s)) 0).doorbellBad s v

/-- A fetched descriptor placed in queue order. -/
def insertFetched (f : Fetched) : List Fetched → List Fetched
  | [] => [f]
  | g :: t => if subMod 16 g.q f.q < 2 ^ 15 && g.q != f.q then f :: g :: t else g :: insertFetched f t

/-- How many of a stream's descriptors, from its head count on, have been read without a gap, by fuel. -/
def contig : Nat → Nat → List Fetched → Nat
  | 0, _, _ => 0
  | n + 1, h, fs => if fs.any fun x => x.q == h then 1 + contig n ((h + 1) % 2 ^ 16) fs else 0

/-- The head count moves past `n` descriptors one by one, with a report at every 64th since the last (R89). -/
def Block.headSteps : Nat → Block → Nat → Block
  | 0, b, _ => b
  | n + 1, b, s =>
    let b := b.setStream s fun y => { y with head := (y.head + 1) % 2 ^ 16 }
    let y := b.stream s
    Block.headSteps n (if decide (64 ≤ subMod 16 y.head y.reported) then b.headReport s else b) s

/-- A descriptor has been read (R87, R89). -/
def Block.descRead (b : Block) (s q gen : Nat) (data : List Byte) (bad : Bool) : Block :=
  let x := b.stream s
  if x.gen != gen || !(b.enabled s) then b else
  let ws := (List.range (data.length / 8)).map fun i => word (ofBytes (slice data (8 * i) 8))
  let b := b.setStream s fun y => { y with fetched := insertFetched { q, desc := if bad then none else some ws } y.fetched }
  let b := Block.headSteps (contig 65 (b.stream s).head (b.stream s).fetched) b s
  let y := b.stream s
  let b := if y.head == b.cqTail s && y.head != y.reported then b.headReport s else b
  b.fetch 64 s

/-! ### Commands -/

/-- A live command. -/
def Block.cmd? (b : Block) (id : Nat) : Option Cmd := b.req.cmds.find? fun c => c.id == id

/-- A status that a data instruction of a FOLD's program meets at a chip: the first report of it stays (R247). -/
def Cmd.note (f : Cmd) (status chip : Nat) : Cmd :=
  if status == 0 || f.firsts.any (fun x => x.1 == status) then f else { f with firsts := f.firsts ++ [(status, chip)] }

/-- The chip that first reported a status to a FOLD. -/
def Cmd.first (f : Cmd) (status chip : Nat) : Nat := ((f.firsts.find? fun x => x.1 == status).map (·.2)).getD chip

/-- A live command changed; the FOLD that a data instruction belongs to notes the status that this met (R247). -/
def Block.setCmd (b : Block) (id : Nat) (f : Cmd → Cmd) : Block :=
  let met := (b.req.cmds.find? fun c => c.id == id).bind fun c =>
    if c.ofFold && (f c).status != c.status then some ((b.fold.progs.getD c.stream {}).cmd, (f c).status, (f c).failChip) else none
  let note := fun (c : Cmd) => match met with
    | none => c
    | some (fid, st, chip) => if c.id == fid && !c.ofFold then c.note st chip else c
  { b with req := { b.req with cmds := b.req.cmds.map fun c => note (if c.id == id then f c else c) } }

/-- A command's requester timeout in ms, clamped to 1 to 64,000 (R126). It is worked out as the command is admitted: a later write
of FOLD.TIMEOUT changes later commands only (DESIGN CHOICE, log entry 73). -/
def Block.timeoutOf (b : Block) (s : Nat) (d : List Word) : Nat :=
  let t := if dTimeout d != 0 then dTimeout d
    else if fld (b.entryWord s 3) 63 48 != 0 then fld (b.entryWord s 3) 63 48 else b.rf (fo 0x068) 15 0
  max 1 (min 64000 t)

/-- One piece of a store range (R106): opcode 0x02 or 0x03, offset, bytes; by fuel. -/
def storeCuts : Nat → Nat → Nat → List (Nat × Nat × Nat)
  | 0, _, _ => []
  | f + 1, a, n =>
    if n == 0 then []
    else if a % 16 != 0 then
      let k := min n (16 - a % 16)
      (0x03, a, k) :: storeCuts f (a + k) (n - k)
    else if n < 16 then [(0x03, a, n)]
    else
      let k := min (n / 16 * 16) (4096 - a % 4096)
      (0x02, a, k) :: storeCuts f (a + k) (n - k)

/-- A range cut at 4 KiB boundaries of the window (R107, R108). -/
def windowCuts (a n : Nat) : List (Nat × Nat) := if n == 0 then [] else cut4k (n / 4096 + 2) a n

/-- Header bits of a STORE or STORE_PART (Table 3.7). A range that runs past the end of the 2 TiB window goes on at its start
(DESIGN CHOICE, log entry 64). -/
def storeLow (op off n ctr : Nat) : Nat :=
  if op == 0x03 then put (off / 16) 37 25 + put (off % 16) 4 21 + put (off % 16 + n - 1) 4 17 + put ctr 16 0
  else put (off / 16) 37 25 + put (n / 16 - 1) 8 17 + put ctr 16 0

/-- Data bytes of a store as its slots carry them: a STORE_PART's bytes lie at FIRST to LAST of its slot. -/
def storeData (op off : Nat) (data : List Byte) : List Byte :=
  if op % 8 == 3 then (List.replicate (off % 16) (0 : Byte) ++ data ++ List.replicate 16 (0 : Byte)).take 16 else data

/-- Destination field of a header (R99, R104), GEN apart: a chip, or BCAST and group. -/
def dstField (a : Word) : Nat :=
  if faClass a == 0xF then 2 ^ 14 else if faClass a == 0xE then fld a 56 45 else faChip a

/-- Packets of a COPY, PUT or fold PUT (R106). -/
def storePlans (dst : Word) (src : Option Nat) (inline_ : List Byte) (len ctr key : Nat) : List Plan :=
  let a := faOff dst
  let mc := decide (0xE ≤ faClass dst)
  (storeCuts (len / 16 + 3) a len).mapIdx fun i (op, off, n) =>
    { k := i, opcode := if mc then op + 8 else op, low := storeLow op off n ctr, dst := dstField dst, n, key,
      src := src.map (· + (off - a)), srcLen := if src.isSome then n else 0,
      data := if src.isSome then none else some (storeData op off (slice inline_ (off - a) n)) }

/-- Packets of a REDUCE or fold PUTR (R107). -/
def reducePlans (dst : Word) (src len prof ctr key : Nat) : List Plan :=
  let a := faOff dst
  (windowCuts a len).mapIdx fun i (off, n) =>
    { k := i, opcode := if decide (0xE ≤ faClass dst) then 0x0C else 0x04, dst := dstField dst, n, key,
      low := put (off / 64) 35 27 + put (n / 64 - 1) 6 21 + put prof 4 17 + put ctr 16 0,
      src := some (src + (off - a)), srcLen := n }

/-- Packets of a GET or fold GET (R108): LOADs of whole slots, and where their bytes land. -/
def loadPlans (src : Word) (land len key : Nat) : List Plan :=
  if faClass src == 1 then
    [{ k := 0, opcode := 0x06, low := put (faOff src / 8) 16 46, dst := faChip src, n := 8, key, landAt := land, want := 8,
       data := some [] }]
  else
    let a := faOff src
    let lo := a / 16 * 16
    let hi := (a + len + 15) / 16 * 16
    (windowCuts lo (hi - lo)).mapIdx fun i (off, n) =>
      let first := max a off
      { k := i, opcode := 0x01, low := put (off / 16) 37 25 + put (n / 16 - 1) 8 17, dst := faChip src, n, key,
        landAt := land + (first - a), skip := first - off, want := min (a + len) (off + n) - first, data := some [] }

/-- Spans of a Wring (R204): whole blocks of `blk` bytes before each 4 KiB boundary; by fuel. -/
def wringSpans : Nat → Nat → Nat → Nat → List (Nat × Nat)
  | 0, _, _, _ => []
  | f + 1, blk, a, n =>
    if n == 0 then [] else
    let k := min n ((4096 - a % 4096) / blk * blk)
    if k == 0 then [] else (a, k) :: wringSpans f blk (a + k) (n - k)

/-- Bytes of one Wring source block (Table 3.2): 64 for bfloat16, 128 for binary32. -/
def wringBlk (src : Nat) : Nat := if src == 0 then 64 else 128

/-- Packets of a WRING or a PUTR with WRING = 1 (R204). -/
def wringPlans (dst : Word) (src len prof ctr key wsrc wwire : Nat) : List Plan :=
  let a := faOff dst
  let blk := wringBlk wsrc
  (wringSpans (len / blk + 2) blk a len).mapIdx fun i (off, n) =>
    let u := segUnits (wringWire wwire) (n / blk)
    { k := i, opcode := 0x04, dst := faChip dst, n := 64 * u, key,
      low := put (off / 64) 35 27 + put (u - 1) 6 21 + put prof 4 17 + put ctr 16 0,
      src := some (src + (off - a)), srcLen := n }

/-- Whether an address names the issuing chip in class 0x0. -/
def Block.isLocal (b : Block) (a : Word) : Bool := faClass a == 0 && faForm a && faChip a == b.chipId

/-- First failing outcome of a list of checks. -/
def firstFail : List (Nat × Nat) → Nat × Nat
  | [] => (0, 0)
  | x :: t => if x.1 != 0 then x else firstFail t

/-- A condition as a check. -/
def need (ok : Bool) (status reason : Nat) : Nat × Nat := if ok then (0, 0) else (status, reason)

/-- Whether LENGTH lies inside Table 3.2 for an opcode; a REDUCE or WRING of LENGTH 0 is out of it (DESIGN CHOICE, log entry 64). -/
def lengthOk (d : List Word) : Bool :=
  let l := dLength d
  match dOp d with
  | 0x01 => decide (1 ≤ l)
  | 0x02 => decide (1 ≤ l) && decide (l ≤ 24)
  | 0x03 => decide (1 ≤ l)
  | 0x10 => l != 0 && l % 64 == 0
  | 0x14 => l != 0 && l % wringBlk (fld (dw d 8) 43 42) == 0
  | _ => l == 0

/-- Whether the alignment rules of §3.3 can be met. -/
def alignOk (d : List Word) : Bool :=
  let o := faOff (dDst d)
  match dOp d with
  | 0x04 => o % 8 == 0
  | 0x11 => o % 16 == 0
  | 0x10 => o % 64 == 0
  | 0x14 =>
    let blk := wringBlk (fld (dw d 8) 43 42)
    o % 64 == 0 && ((wringSpans (dLength d / blk + 2) blk o (dLength d)).map (·.2)).sum == dLength d
  | _ => true

/-- Whether a descriptor's opcode, version and reserved fields are allowed in a queue (R94, R98, Table 15.8). -/
def Block.formOk (b : Block) (s : Nat) (d : List Word) : Bool :=
  let qv := fld (b.entryWord s 3) 31 28
  let op := dOp d
  let v1 := [0x00, 0x01, 0x02, 0x03, 0x04].contains op
  let v2 := [0x10, 0x11, 0x12, 0x13, 0x14, 0x15].contains op
  dVersion d == qv && (v1 || (v2 && qv == 2)) && dReservedZero d && (qv == 1 || b.agreed 1)
  && (op != 0x13 || b.agreed 2) && (op != 0x14 || b.agreed 3)
  && (op != 0x04 || (decide (0x10 ≤ dAop d) && decide (dAop d ≤ 0x19)))
  && (op != 0x14 || (decide (fld (dw d 8) 43 42 ≤ 1) && fld (dw d 8) 41 40 != 3))

/-- The FOLD checks (R214): a locked region without a pending clear, and a local 64-byte aligned ARG0. -/
def Block.foldOk (b : Block) (d : List Word) : Bool :=
  let g := fld (dw d 9) 13 0 / 1024
  bit (b.peek (fo 0x100)) g && !(bit (b.peek (fo 0x100)) (16 + g))
  && b.isLocal (dw d 10) && faOff (dw d 10) % 64 == 0

/-- Admission of a descriptor (R45, R98, R214): status and reason of the first rule broken, in the order form, length and
alignment, DST, SRC, RESIDUAL, and for an address the order of R45's list (the order is DESIGN CHOICE, log entry 64). -/
def Block.admission (b : Block) (s : Nat) (d : List Word) : Nat × Nat :=
  let op := dOp d
  let form := need (b.formOk s d) stDENIED 0xD
  let len := need (lengthOk d && alignOk d) stDENIED 0xD
  let loc := fun (a : Word) => firstFail [b.admitAddr a false false, need (b.isLocal a) stDENIED 0xD]
  let result := if dNoResult d then [] else [loc (dSrc d)]
  firstFail ([form] ++
    match op with
    | 0x01 => [len, b.admitAddr (dDst d) true false, loc (dSrc d)]
    | 0x02 => [len, b.admitAddr (dDst d) true false]
    | 0x03 => [len, b.admitAddr (dSrc d) false true, need (faClass (dSrc d) != 1 || dLength d == 8) stDENIED 0xE, loc (dDst d)]
    | 0x04 | 0x11 => [len, b.admitAddr (dDst d) false false] ++ result
    | 0x10 => [len, b.admitAddr (dDst d) true false, loc (dSrc d)]
    | 0x12 => [len, b.admitAddr (dDst d) false true, need (faClass (dDst d) == 1) stDENIED 0xE]
    | 0x13 => [len, need (b.foldOk d) stDENIED 0xD]
    | 0x14 => [len, b.admitAddr (dDst d) false false, loc (dSrc d), loc (dw d 9)]
    | _ => [len])

/-- The packets a descriptor is cut into (§3.4). -/
def plansOf (d : List Word) : List Plan :=
  match dOp d with
  | 0x01 => storePlans (dDst d) (some (faOff (dSrc d))) [] (dLength d) (dCounter d) (dDkey d)
  | 0x02 => storePlans (dDst d) none ((toBytes 8 (dw d 5).toNat) ++ toBytes 8 (dw d 6).toNat ++ toBytes 8 (dw d 7).toNat)
      (dLength d) (dCounter d) (dDkey d)
  | 0x03 => loadPlans (dSrc d) (faOff (dDst d)) (dLength d) (dSkey d)
  | 0x04 => [{ k := 0, opcode := dAop d, low := put (faOff (dDst d) / 8) 38 24, dst := faChip (dDst d), n := 8,
               key := dDkey d, data := some (toBytes 8 (dw d 5).toNat ++ toBytes 8 (dw d 6).toNat),
               landAt := faOff (dSrc d), want := if dNoResult d then 0 else 8 }]
  | 0x10 => reducePlans (dDst d) (faOff (dSrc d)) (dLength d) (dProfile d) (dCounter d) (dDkey d)
  | 0x11 => [{ k := 0, opcode := 0x1A, low := put (faOff (dDst d) / 8) 38 24, dst := faChip (dDst d), n := 16,
               key := dDkey d, data := some (wordsBytes [dw d 5, dw d 6, dw d 10, dw d 11]),
               landAt := faOff (dSrc d), want := if dNoResult d then 0 else 16 }]
  | 0x12 => [{ k := 0, opcode := 0x05, low := put (faOff (dDst d) / 8) 16 46, dst := faChip (dDst d), n := 0,
               key := dDkey d, data := some (toBytes 16 (dw d 5).toNat) }]
  | 0x14 => wringPlans (dDst d) (faOff (dSrc d)) (dLength d) (dProfile d) (dCounter d) (dDkey d)
      (fld (dw d 8) 43 42) (fld (dw d 8) 41 40)
  | _ => []

/-- Key of a group flow: BCAST and GROUP (R113). -/
def groupKey (dst : Nat) : Nat := dst % 4096 + (if bitN dst 14 then 4096 else 0)

/-- Records of the completion ring that are written and unconsumed, or reserved (R90). -/
def Block.ringUsed (b : Block) (s : Nat) : Nat :=
  let x := b.stream s
  subMod 16 (x.written + x.reserved) (b.crHead s)

/-- Whether a context's descriptors may be admitted (R451, R452). -/
def Block.ctxAdmits (b : Block) (c : Nat) : Bool :=
  !(bit (Tbl.get 0 b.rst.hold c) 0)
  && (b.rf (cx 0x058) 63 63 == 0 || b.rf (cx 0x058) 11 0 == c)

/-- Whether another context has a descriptor waiting (Table 3.15). -/
def Block.othersWait (b : Block) (c : Nat) : Bool :=
  (List.range 256).any fun s => !((b.stream s).fetched.isEmpty) && b.streamCtx s != c

/-- Whether one more command of a context may be admitted, a data instruction of a program among them (Table 3.15, R230). -/
def Block.cmdRoom (b : Block) (c : Nat) : Bool :=
  decide (b.req.cmds.length < 8192)
  && (decide ((b.req.cmds.filter fun k => k.ctx == c).length < 4096) || !(b.othersWait c))

/-- Whether a stream runs a program or has a FOLD admitted: it takes no further descriptor (R217). -/
def Block.foldBusy (b : Block) (s : Nat) : Bool :=
  b.req.cmds.any fun c => c.stream == s && !c.ofFold && dOp c.desc == 0x13

/-- The descriptor that a stream may admit now (R90, R131, R217, R451, R452). -/
def Block.admissible (b : Block) (s : Nat) : Option Fetched :=
  let x := b.stream s
  let c := b.streamCtx s
  match x.fetched with
  | [] => none
  | f :: _ =>
    if b.up && !b.issueHeld && x.ready && b.enabled s && b.ctxAdmits c && b.cmdRoom c
      && decide (b.ringUsed s < 2 ^ fld (b.entryWord s 1) 3 0) && !(b.foldBusy s) && subMod 16 x.head (f.q + 1) < 2 ^ 15 then some f else none

/-- A descriptor admitted (R90): its completion-ring slot is reserved and it becomes a command, already failed where
a rule of admission is broken. -/
def Block.admitDesc (b : Block) (s : Nat) (f : Fetched) : Block :=
  let id := b.req.nextCmd
  let d := f.desc.getD []
  let (st, rsn) := if f.desc.isNone then (stPOISON, 0) else b.admission s d
  let c : Cmd :=
    { id, stream := s, ctx := b.streamCtx s, qindex := f.q % 2 ^ 16, desc := d, status := st, reason := rsn,
      failChip := if st == 0 then 0 else b.chipId, plans := if st == 0 then plansOf d else [],
      timeoutMs := b.timeoutOf s d,
      tickHold := if st == 0 && dOp d == 0x15 then some (fld (dw d 9) 47 0) else none }
  let b := { b with req := { b.req with cmds := b.req.cmds ++ [c], nextCmd := id + 1 } }
  let b := b.setStream s fun x => { x with fetched := x.fetched.drop 1, reserved := x.reserved + 1 }
  let b := if f.desc.isNone then
      b.errRec { type := 0x03, status := stPOISON, ctx := c.ctx, stream := s, detA := f.q % 2 ^ 16 } else b
  b.fetch 64 s

/-- Whether a command has nothing left to issue. -/
def Cmd.issuedAll (c : Cmd) : Bool :=
  c.plans.isEmpty && c.tickHold.isNone && !c.passOpen && c.rowsLeft == 0

/-- Packets, or member-packets for a group, that a plan stands for (FAIL_COUNT, Table 3.11). -/
def Block.weight (b : Block) (p : Plan) : Nat :=
  if isMC p.opcode then b.memberCount (bitN p.dst 14) (p.dst % 4096) else 1

/-- Those of a list of plans. -/
def Block.weights (b : Block) (ps : List Plan) : Nat := (ps.map b.weight).sum

/-! ### The sequencer's hold on a stream (§6.1, §6.6) -/

/-- The program state of a stream. -/
def Block.prog (b : Block) (s : Nat) : Prog := b.fold.progs.getD s {}

/-- A stream's program state changed. -/
def Block.setProg (b : Block) (s : Nat) (f : Prog → Prog) : Block :=
  { b with fold := { b.fold with progs := b.fold.progs.modify s f } }

/-- A pass window disarmed: what is held for it is discarded and counted (R237). -/
def Block.disarm (b : Block) (s : Nat) : Block :=
  let n := (b.fold.staged.filter fun x => x.stream == s).length
  let b := b.setProg s fun p => { p with win := none }
  { b with fold := { b.fold with staged := b.fold.staged.filter fun x => x.stream != s } }.bumpN (fo 0x118) n

/-- Packets, or member-packets, that one result of a PASS stands for (FAIL_COUNT, Table 3.11). -/
def Block.passWeight (b : Block) (ps : Pass) : Nat :=
  if decide (0xE ≤ faClass (word ps.out)) && !ps.final then
    b.memberCount (faClass (word ps.out) == 0xF) (dstField (word ps.out) % 4096) else 1

/-- What a PASS has consumed and not yet sent on or landed, as FAIL_COUNT counts it. -/
def Block.passTaken (b : Block) (s id : Nat) : Nat :=
  let n := (b.fold.passPkts.filter fun x => x.cmd == id).length
  match (b.prog s).pass with
  | none => n
  | some ps => if ps.cmd == id then n * b.passWeight ps else n

/-- It is given up. -/
def Block.dropPass (b : Block) (id : Nat) : Block :=
  { b with fold := { b.fold with passPkts := b.fold.passPkts.filter fun x => x.cmd != id } }

/-- A program stops (R248): it issues nothing more, and what its instruction at the head had not issued counts as
never issued, packets that a PASS had consumed among it. Cause as in Table 6.6; `status` is the status that stopped it, for cause 5,
and `pc` the instruction's program counter (R249). -/
def Block.foldStop (b : Block) (s cause status pc : Nat) : Block :=
  let p := b.prog s
  if p.cmd == 0 || p.st = .stopping then b else
  let b := match p.head with
    | none => b
    | some id => (b.setCmd id fun c =>
        { c with failCount := c.failCount + b.weights c.plans + c.rowsLeft + b.passTaken s id, plans := [], rowsLeft := 0, passOpen := false }).dropPass id
  let b := if cause == 5 then b.setCmd p.cmd fun f => f.note status b.chipId else b
  (b.setProg s fun q => { q with st := .stopping, cause, stopPc := pc, stopStatus := status, head := none, pass := none }).disarm s

/-- OP of a stored instruction (R225). -/
def fOp (i : Slot) : Nat := fld i 127 124

/-- An instruction of the program store (R219). -/
def Block.instr (b : Block) (pc : Nat) : Slot := Tbl.get 0 b.fold.store pc

/-- The counter of a program set: outside its region it stops, at a poisoned or reserved instruction too (R222, R223,
R225). -/
def Block.setPc (b : Block) (s pc : Nat) : Block :=
  let p := b.prog s
  let b := b.setProg s fun q => { q with pc := pc % 16384, st := .issuing, head := none, since := b.time.now }
  if pc / 1024 != p.entry / 1024 then (b.setProg s fun q => { q with pc := p.pc }).foldStop s 3 0 p.pc
  else if b.fold.bad.contains pc then b.foldStop s 5 stPOISON pc
  else if fOp (b.instr pc) == 0 || decide (0xC ≤ fOp (b.instr pc)) then b.foldStop s 1 0 pc
  else b

/-- The instruction at the head is issued: the next one reaches the head (R229). -/
def Block.foldAdvance (b : Block) (s : Nat) : Block :=
  let p := b.prog s
  match p.head with
  | none => b
  | some id =>
    match b.cmd? id with
    | none => b.setPc s (p.pc + 1)
    | some c => if c.issuedAll then b.setPc s (p.pc + 1) else b

/-! ### Issue (R92, R97, R109) -/

/-- A flow's source side; after a compute-domain reset every flow starts broken, with no FSYNC sent (R466). -/
def Block.flow (b : Block) (peer cls : Nat) : Flow :=
  (b.req.flows.find? fun f => f.peer == peer && f.cls == cls).getD
    (if b.req.afterReset then
      { peer, cls, fresh := true,
        broken := some { cause := 0, by_ := b.chipId, fsyncs := [], sent := 0, sentAt := b.time.now, cmds := [] } }
     else { peer, cls })

/-- A flow's source side changed. -/
def Block.setFlow (b : Block) (f : Flow) : Block :=
  let rest := b.req.flows.filter fun x => !(x.peer == f.peer && x.cls == f.cls)
  { b with req := { b.req with flows := rest ++ [f] } }

/-- A group flow's source side. -/
def Block.gflow (b : Block) (key cls : Nat) : GroupFlow :=
  (b.req.groups.find? fun g => g.key == key && g.cls == cls).getD { key, cls }

/-- A group flow's source side changed. -/
def Block.setGflow (b : Block) (g : GroupFlow) : Block :=
  let rest := b.req.groups.filter fun x => !(x.key == g.key && x.cls == g.cls)
  { b with req := { b.req with groups := rest ++ [g] } }

/-- The lowest TAG neither in use nor held back (R114). -/
def Block.tagFree (b : Block) : Option Nat :=
  findIdx 65536 fun t => !(b.req.tags.any fun e => e.tag == t) && !(b.req.held.any fun h => h.tag == t)

/-- Commands of a stream, oldest first. -/
def Block.cmdsOf (b : Block) (s : Nat) : List Cmd := b.req.cmds.filter fun c => c.stream == s

/-- The command of a stream whose turn to issue it is (R92): the first not issued; none while a FENCE waits for an
earlier command, or while a FOLD has the stream. A NOP has no packet to issue, so later commands do not wait for one whose
FENCE waits (DESIGN CHOICE, log entry 64). -/
def Block.turn (b : Block) (s : Nat) : Option Cmd :=
  let cs := b.cmdsOf s
  let before := cs.takeWhile fun c => c.issuedAll && !(dOp c.desc == 0x13 && !c.ofFold && !c.ended)
  match cs.drop before.length with
  | [] => none
  | c :: _ =>
    if !c.ofFold && dOp c.desc == 0x13 then
      (if (b.prog s).cmd == c.id then (b.prog s).head.bind b.cmd?
       else if dFence c.desc && !before.isEmpty then none else some c)
    else if !c.ofFold && dFence c.desc && !before.isEmpty then none else some c

/-- A command gives up what it has not issued: those packets count as failed (Table 3.11). -/
def Block.stopCmd (b : Block) (id status reason chip : Nat) : Block :=
  b.setCmd id fun c =>
    { (c.meet status reason chip) with failCount := c.failCount + b.weights c.plans, plans := [], tickHold := none }

/-- The first local check that fails stops a command (R97): its packet `k` and the later ones are never issued. -/
def Block.stopFrom (b : Block) (id k status reason chip : Nat) : Block :=
  b.setCmd id fun c =>
    { (c.meet status reason chip) with failCount := c.failCount + b.weights (c.plans.filter fun q => k ≤ q.k),
                                       plans := c.plans.filter fun q => q.k < k }

/-- The key paired with a command's source (R97): SKEY. -/
def Cmd.skey (c : Cmd) : Nat := dSkey c.desc

/-- The key paired with a command's local landing: DKEY for a GET, SKEY for an atomic's RESULT (R97). -/
def Cmd.landKey (c : Cmd) : Nat := if dOp c.desc == 0x03 && !c.ofFold then dDkey c.desc else dSkey c.desc

/-- A packet's plan changed. -/
def Block.setPlan (b : Block) (id k : Nat) (f : Plan → Plan) : Block :=
  b.setCmd id fun x => { x with plans := x.plans.map fun q => if q.k == k then f q else q }

/-- A local check of a command: a granule that it has touched is checked under the entry that was read then (R97, R73); a check that
fails is counted once (R67). -/
def Block.cmdCheck (b : Block) (id key off n : Nat) (perms : List Nat) : Block × Check :=
  match b.cmd? id with
  | none => b.localCheck 0 key off n perms
  | some c =>
    let i := off / 2 ^ 21
    let old := c.granules.find? fun x => x.i == i
    let g := old.getD (b.granule i)
    let ck := b.checkOn g { off, n, perms, chip := b.chipId, ctx := c.ctx, key }
    let b := b.setCmd id fun x =>
      { x with granules := (x.granules.filter fun y => y.i != i) ++ [{ g with counted := g.counted || ck.status != 0 }] }
    if ck.status == 0 || g.counted then (b, ck)
    else (b.failed ck.status ck.reason c.ctx b.chipId 0 (mkFa 0 b.chipId off), ck)

/-- The landing place of a packet's answer checked, each 2 MiB piece under its own entry (R97, R108; DEDUCED, log entry 36). -/
def Block.checkLanding (b : Block) (c : Cmd) (p : Plan) : Block :=
  let go := fun (acc : Block × Bool) (x : Nat × Nat) =>
    if !acc.2 then acc else
    let (b, ck) := acc.1.cmdCheck c.id c.landKey x.1 x.2 [59]
    if ck.status != 0 then (b.stopFrom c.id p.k ck.status ck.reason b.chipId, false)
    else (b.setPlan c.id p.k fun q => { q with land := q.land ++ [(ck.haddr, x.2, ck.unc)] }, true)
  ((cut2m (p.want / 2 ^ 21 + 2) p.landAt p.want).foldl go (b.setPlan c.id p.k fun q => { q with started := true }, true)).1

/-- Whether a packet touches the issuing chip's window: a local source, or a local landing place (R97). -/
def Plan.touches (p : Plan) : Bool := p.src.isSome || p.want != 0

/-- Reads of one packet's source started, each 2 MiB piece under its own entry (R97); the residual's too for a Wring
(R203), whose entry must grant P_READ and P_WRITE. A packet with no source has its landing place checked. -/
def Block.startReads (b : Block) (c : Cmd) (p : Plan) : Block :=
  match p.src with
  | none => b.checkLanding c p
  | some off =>
    let wring := dOp c.desc == 0x14
    let resOff := faOff (dw c.desc 9) + (off - faOff (dSrc c.desc))
    let pieces := (cut2m (p.srcLen / 2 ^ 21 + 2) off p.srcLen).mapIdx fun i (a, n) => (i, a, n, false)
    let rpieces := if wring then (cut2m (p.srcLen / 2 ^ 21 + 2) resOff p.srcLen).mapIdx fun i (a, n) => (i, a, n, true) else []
    let all := pieces ++ rpieces
    let go := fun (acc : Block × Bool) (x : Nat × Nat × Nat × Bool) =>
      if !acc.2 then acc else
      let (i, a, n, res) := x
      let (b, ck) := acc.1.cmdCheck c.id c.skey a n (if res then [60, 59] else [60])
      if ck.status != 0 then (b.stopFrom c.id p.k ck.status ck.reason b.chipId, false)
      else
        let b := if res then b.setPlan c.id p.k fun q => { q with resAt := q.resAt ++ [(ck.haddr, n, ck.unc)] } else b
        (b.hread ck.unc c.ctx ck.haddr n (if res then .residual c.id p.k i else .source c.id p.k i), true)
    let b := b.setPlan c.id p.k fun q => { q with started := true, reading := all.length }
    (all.foldl go (b, true)).1

/-- Whether a packet of a class that this chip sends waits for an output's credit (R250, R294): a data instruction issues no more of the
class meanwhile (DESIGN CHOICE, log entry 66). -/
def Block.egressFull (b : Block) (cls : Nat) : Bool :=
  b.fwd.pkts.any fun q => q.input == 6 && opClass (hOp q.hdr) == cls && q.branches.any fun x => x.st = .waiting && x.order == 0

/-- What keeps the head packet of a command from leaving now: limits of Table 3.15, a broken flow, a group flow held
by another command, no free TAG, a class held at an epoch switch, or for a data instruction no egress credit (R113, R114, R123, R131,
R250, R309). -/
def Block.blocked (b : Block) (c : Cmd) (p : Plan) : Bool :=
  let cls := opClass p.opcode
  if !(bitN b.fwd.switched cls) || (c.ofFold && b.egressFull cls) then true
  else if nonPosted p.opcode then b.tagFree.isNone
  else if isMC p.opcode then
    let g := b.gflow (groupKey p.dst) cls
    (match g.cmd with
     | some id => id != c.id
     | none => decide (256 ≤ (b.req.groups.filter fun x => x.cmd.isSome).length))
    || decide (131072 ≤ b.req.posted.length)
  else
    (b.flow p.dst cls).broken.isSome || decide (131072 ≤ b.req.posted.length)
    || (!(b.req.posted.any fun x => x.peer == p.dst && x.cls == cls)
        && decide (8192 ≤ (((b.req.posted.filter fun x => decide (x.peer < 32768)).map fun x => (x.peer, x.cls)).eraseDups).length))

/-- The head packet of a command leaves for the forwarding core (R24, R57, R99). -/
def Block.emit (b : Block) (c : Cmd) (p : Plan) : Block :=
  let cls := opClass p.opcode
  let ep := b.injectEpoch cls
  let data := bytesSlots (p.data.getD [])
  let done := fun (b : Block) => b.setCmd c.id fun x => { x with plans := x.plans.drop 1, anyIssued := true, issuedN := x.issuedN + 1 }
  let hdr := fun (dst low : Nat) => mkReq p.opcode ep dst b.chipId c.ctx p.key low
  if nonPosted p.opcode then
    let tag := b.tagFree.getD 0
    let b := { b with req := { b.req with tags := b.req.tags ++
      [({ tag, cmd := c.id, opcode := p.opcode, peer := p.dst, k := p.k, land := p.land, skip := p.skip, want := p.want,
          lctr := dLcounter c.desc, epoch := ep, tick := b.time.tick } : TagEnt)] } }
    (done (b.setCmd c.id fun x => { x with tags := x.tags + 1 })).inject { hdr := hdr p.dst (p.low + tag), data }
  else if isMC p.opcode then
    let key := groupKey p.dst
    let g := b.gflow key cls
    let g' : GroupFlow := if g.cmd == some c.id then { g with issued := g.issued + 1 }
      else { g with cmd := some c.id, gen := (g.gen + 1) % 4, issued := 1, count := 0, by_ := [], noted := 0, torn := 0, tornBy := 0,
                    members := b.memberCount (decide (4096 ≤ key)) (key % 4096) }
    let b := (b.setGflow g').setCmd c.id fun x => { x with group := some (key, cls) }
    let b := { b with req := { b.req with posted := b.req.posted ++
      [{ cmd := c.id, k := p.k, peer := 32768 + key, cls, pos := g'.issued, n := p.n, epoch := ep, tick := b.time.tick }] } }
    (done b).inject { hdr := hdr (p.dst % 4096 + put g'.gen 2 12 + (if bitN p.dst 14 then 2 ^ 14 else 0)) p.low, data }
  else
    let f := b.flow p.dst cls
    let pos := (f.issued + 1) % 2 ^ 24
    let b := b.setFlow { f with issued := pos }
    let b := { b with req := { b.req with posted := b.req.posted ++
      [{ cmd := c.id, k := p.k, peer := p.dst, cls, pos, n := p.n, epoch := ep, tick := b.time.tick }] } }
    (done b).inject { hdr := hdr p.dst p.low, data }

/-- The residual writes of a Wring packet, at the places that the check of its entry gave (R97, R203, R207). -/
def Block.writeResidual (b : Block) (c : Cmd) (p : Plan) : Block :=
  (p.resAt.foldl (fun (acc : Block × Nat) (x : Nat × Nat × Bool) =>
    let b := acc.1.setCmd c.id fun y => { y with lands := y.lands + 1 }
    (b.hwrite x.2.2 c.ctx x.1 (slice p.resOut acc.2 x.2.1) (.residualWrite c.id), acc.2 + x.2.1)) (b, 0)).1

/-- Whether everything just offered to the host has gone out: nothing more waits than before (R207). -/
def Block.wentOut (b b' : Block) : Bool :=
  decide (b'.host.waiting.length ≤ b.host.waiting.length) && decide (b'.dest.waiters.length ≤ b.dest.waiters.length)

/-- FSYNC of a flow sent (R123, step 2): counted as a packet of the flow. Its TAG is none of those of R114: it numbers the flow's
FSYNCs (DESIGN CHOICE, log entry 61). -/
def Block.sendFsync (b : Block) (peer cls : Nat) : Block :=
  match (b.flow peer cls).broken with
  | none => b
  | some br =>
    let f := b.flow peer cls
    let tag := f.syncs % 2 ^ 16
    let pos := (f.issued + 1) % 2 ^ 24
    let go := bitN b.fwd.switched cls && !b.issueHeld
    let b := b.setFlow { f with issued := pos, syncs := f.syncs + 1,
                                broken := some { br with
                                  fsyncs := br.fsyncs ++ [(tag, pos, if go then b.injectEpoch cls else 2)], sent := br.sent + 1,
                                  sentAt := b.time.now } }
    let p : Packet := { hdr := mkReq (4 + cls) (b.injectEpoch cls) peer b.chipId 0 0 tag }
    if go then b.inject p
    else { b with fwd := { b.fwd with held := b.fwd.held ++ [p] } }

/-- The first FSYNC of a flow that a compute-domain reset left broken, before its first packet (R466). -/
def Block.firstFsync (b : Block) (p : Plan) : Block :=
  let cls := opClass p.opcode
  if nonPosted p.opcode || isMC p.opcode then b
  else match (b.flow p.dst cls).broken with
    | none => b
    | some br => if br.sent == 0 then b.sendFsync p.dst cls else b

/-- A TICK descriptor's turn comes (Table 3.2): index 0, or one that has passed, waits for the next edge. Its `timer`
says that its turn has come; it has no timeout. -/
def Block.tickTurn (b : Block) (c : Cmd) : Block :=
  match c.tickHold, c.timer with
  | some t, none => b.setCmd c.id fun x => { x with timer := some b.time.now, tickHold := some (max t (b.time.tick + 1)) }
  | _, _ => b

/-- The awaited edge of the TICK descriptor whose turn it is has come (Table 3.2). -/
def Block.tickHoldEnd (b : Block) (s : Nat) : Option Block :=
  match b.turn s with
  | none => none
  | some c =>
    match c.tickHold, c.timer with
    | some t, some _ => if t ≤ b.time.tick then some (b.setCmd c.id fun x => { x with tickHold := none }) else none
    | _, _ => none

/-- A FOLD reaches its turn to issue (R215, step 1): its operand table is checked under SKEY and its read starts. The table is one
access: one that crosses 2 MiB fails step 10 of Table 2.7 (DESIGN CHOICE, log entry 75). -/
def Block.foldTurn (b : Block) (s : Nat) : Block :=
  match b.turn s with
  | none => b
  | some c =>
    if c.ofFold || dOp c.desc != 0x13 || c.status != 0 || (b.prog s).cmd != 0 || !b.up || b.rst.draining
      || b.rst.engines.contains 12 then b
    else
      let entry := fld (dw c.desc 9) 13 0
      let (b, ck) := b.localCheck c.ctx (dSkey c.desc) (faOff (dw c.desc 10)) 512 [60]
      let b := { b with fold := { b.fold with ctrs := b.fold.ctrs.filter fun x => x.1 / 4 != s } }
      if ck.status != 0 then
        b.setCmd c.id fun x => { (x.meet ck.status ck.reason b.chipId) with ended := true }
      else
        (b.setProg s fun _ => { st := .starting, cmd := c.id, entry, pc := entry }).hread ck.unc c.ctx ck.haddr 512 (.foldArgs s)

/-- Issue from one stream for as long as it can go on, by fuel (R92, R109, R127): the timer starts at the first try. A Wring packet leaves
only once its residual writes have (R207). -/
def Block.pumpStream : Nat → Block → Nat → Block
  | 0, b, _ => b
  | f + 1, b, s =>
    match b.turn s with
    | none => b
    | some c =>
      match c.plans with
      | [] => if b.rst.draining || !b.up then b else b.tickTurn c
      | p :: _ =>
        if b.issueHeld || !b.up then b else
        let b := if c.timer.isNone then b.setCmd c.id fun x => { x with timer := some b.time.now } else b
        match (c.plans.take 16).find? fun q => q.touches && !q.started with
        | some q => Block.pumpStream f (b.startReads c q) s
        | none =>
          if p.poison then
            Block.pumpStream f (b.setCmd c.id fun x =>
              { (x.meet stPOISON 0 b.chipId) with plans := x.plans.drop 1, failCount := x.failCount + b.weight p }) s
          else if p.data.isNone then b
          else if b.blocked c p then b.firstFsync p
          else
            let b' := if p.resOut.isEmpty then b else b.writeResidual c p
            if b.wentOut b' then Block.pumpStream f (b'.emit c p) s else b

/-- Issue from every stream that has work. -/
def Block.reqPump (b : Block) : Block :=
  let ss := (b.req.cmds.map (·.stream)).eraseDups
  let fuel := 2 * ((b.req.cmds.map fun c => c.plans.length).sum) + 2
  ss.foldl (fun b s => ((Block.pumpStream fuel b s).foldTurn s).foldAdvance s) b

/-- A source or residual read of a packet has returned (R97, Table 3.16). A Wring packet's unit enters the dispatch order once all of
them have, and a bad one ends it with POISON (R180, R181). -/
def Block.sourceRead (b : Block) (cmd pk part : Nat) (res : Bool) (data : List Byte) (bad : Bool) : Block :=
  match b.cmd? cmd with
  | none => b
  | some c =>
    let wring := dOp c.desc == 0x14
    let upd := fun (p : Plan) =>
      if p.k != pk then p else
      let p := { p with reading := p.reading - 1, poison := p.poison || (bad && !wring), srcBad := p.srcBad || (bad && wring),
                        got := if res then p.got else p.got ++ [(part, data)],
                        res := if res then p.res ++ [(part, data)] else p.res }
      let join := fun (xs : List (Nat × List Byte)) =>
        ((List.range xs.length).map fun i => ((xs.find? fun x => x.1 == i).map (·.2)).getD []).flatten
      if p.reading == 0 && !p.poison && !wring then
        { p with data := some (storeData p.opcode (p.low / 2 ^ 21 % 16) (join p.got)) } else p
    let b := b.setCmd cmd fun x => { x with plans := x.plans.map upd }
    match (b.cmd? cmd).bind fun x => x.plans.find? fun q => q.k == pk with
    | none => b.reqPump
    | some p =>
      if wring && p.reading == 0 && !p.poison && p.data.isNone then
        let join := fun (xs : List (Nat × List Byte)) =>
          ((List.range xs.length).map fun i => ((xs.find? fun x => x.1 == i).map (·.2)).getD []).flatten
        { b with mangle := { b.mangle with queue := b.mangle.queue ++
          [{ kind := .wring cmd pk, w := join p.got, m := join p.res, stream := c.stream,
             stoch := c.ofFold && dQuiet c.desc,
             src := wringSrc (fld (dw c.desc 8) 43 42), wire := wringWire (fld (dw c.desc 8) 41 40),
             bad := p.srcBad, tick := b.time.tick }] } }
      else b.reqPump

/-! ### Completion (§3.6) -/

/-- Whether some posted packet of a command is not covered. -/
def Block.hasPosted (b : Block) (id : Nat) : Bool := b.req.posted.any fun p => p.cmd == id

/-- A group flow is finished when everything of its command is issued and the COUNTs add up to packets × members (R113); one that
met a note is not: its command completes at its deadline (R124). -/
def Block.groupDone (b : Block) (c : Cmd) : Bool :=
  match c.group with
  | none => false
  | some (key, cls) =>
    let g := b.gflow key cls
    g.cmd == some c.id && g.torn == 0 && g.count == g.issued * g.members

/-- Whether a command's turn to issue has come and gone: every earlier command of its stream has issued (R95). -/
def Block.turnPassed (b : Block) (c : Cmd) : Bool :=
  let before := (b.cmdsOf c.stream).takeWhile fun x => x.id != c.id
  if c.ofFold then true
  else (before.all fun x => x.issuedAll) && (!(dFence c.desc) || before.isEmpty)

/-- Whether every packet of a command is issued and covered, and every local landing accepted (R115). One that a flow sync or its
deadline has ended waits for its local landings too, but for a TIMEOUT at its own deadline, after whose record bytes may still land
(R171, Table 3.12). -/
def Block.covered (b : Block) (c : Cmd) : Bool :=
  (c.ended && (c.lands == 0 || (c.expired && c.status == stTIMEOUT)))
  || (!c.ended && (dOp c.desc != 0x13 || c.ofFold || (c.status != 0 && (b.prog c.stream).cmd != c.id))
    && c.issuedAll && c.tags == 0 && c.lands == 0 && (if c.group.isSome then b.groupDone c else !(b.hasPosted c.id))
    && b.turnPassed c)

/-- A completion record's words (Table 3.11). -/
def recordWords (c : Cmd) (tick phase : Nat) : List Word :=
  [word (if c.desc.isEmpty then 0 else (dw c.desc 1).toNat),
   word (put phase 1 63 + put c.status 4 59 + put c.reason 4 55 + put c.ctx 12 43 + put c.stream 8 35
     + put (dOp c.desc) 8 27 + put (b2n c.anyIssued) 1 26 + put c.qindex 16 0),
   word (put (min c.failCount 65535) 16 48 + put c.bytesOk 48 0),
   word (put c.failChip 15 49 + put tick 48 0)]

/-- A command removed from the engine: its group flow is free, its posted packets stay as flow positions. -/
def Block.dropCmd (b : Block) (c : Cmd) : Block :=
  let b := { b with req := { b.req with cmds := b.req.cmds.filter fun x => x.id != c.id } }
  match c.group with
  | none => b
  | some (key, cls) =>
    let g := b.gflow key cls
    if g.cmd == some c.id then
      let b := b.setGflow { g with cmd := none }
      { b with req := { b.req with posted := b.req.posted.filter fun p => p.cmd != c.id } }
    else b

/-- The completion record written, or the reservation freed for QUIET with OK (R115 to R119). A command of an earlier enable writes
into the ring as it is now (DESIGN CHOICE, log entry 64). -/
def Block.complete (b : Block) (c : Cmd) : Block :=
  let b := (b.dropCmd c).ivAdd ivCompleted 1
  let b := if c.status == 0 then b else
    b.trace 0x0F c.ctx c.stream (put c.status 4 0 + put c.reason 4 4 + put (dOp c.desc) 8 8) (dw c.desc 1).toNat
  let x := b.stream c.stream
  if x.entry.isNone then b
  else if dQuiet c.desc && c.status == 0 && !c.desc.isEmpty then
    b.setStream c.stream fun y => { y with reserved := y.reserved - 1 }
  else
    let size := fld (b.entryWord c.stream 1) 3 0
    let addr := fld (b.entryWord c.stream 1) 51 12 * 4096 + 32 * (x.written % 2 ^ size)
    let b := b.record addr (wordsBytes (recordWords c b.time.tick (lapBit x.written size)))
    b.setStream c.stream fun y => { y with reserved := y.reserved - 1, written := (y.written + 1) % 2 ^ 16 }

/-- SOLO.ACTIVE sets once every other context's commands and programs have completed (R452). -/
def Block.soloCheck (b : Block) : Block :=
  if b.rf (cx 0x058) 63 63 == 1 && !(b.req.cmds.any fun c => c.ctx != b.rf (cx 0x058) 11 0) then b.setRf (cx 0x058) 62 62 1
  else b

/-! ### Receipts, responses and flows (§3.5, §3.7) -/

/-- A TAG closed by TORN, FLUSHED or TIMEOUT is held for one further timeout period of its command (R114). -/
def Block.closeTag (b : Block) (e : TagEnt) (timeoutMs : Nat) : Block :=
  { b with req := { b.req with tags := b.req.tags.filter fun x => x.tag != e.tag,
                               held := b.req.held ++ [{ tag := e.tag, until_ := b.time.now + timeoutMs * 16000000 }] } }

/-- RCLASS of a class (Table 3.8). -/
def rclassOf (cls : Nat) : Nat := cls - 3

/-- A flow breaks (R123, steps 1 and 2); a flow already broken breaks no second time. Cause 1 TORN, 2 FLUSHED, 3 TIMEOUT. -/
def Block.breakFlow (b : Block) (peer cls cause by_ : Nat) : Block :=
  let f := b.flow peer cls
  if f.broken.isSome then b else
  let ids := (b.req.posted.filter fun p => p.peer == peer && p.cls == cls).map (·.cmd)
  let live := (b.req.cmds.filter fun c => ids.contains c.id).map (·.id)
  let b := b.setFlow { f with broken := some { cause, by_, fsyncs := [], sent := 0, sentAt := b.time.now, cmds := live } }
  let b := (b.bump (fo 0x088)).errRec
    { type := 0x04, status := if cause == 1 then stTORN else if cause == 2 then stFLUSHED else stTIMEOUT,
      peer, rclass := rclassOf cls, detA := cause }
  let b := (b.trace 0x07 0 0 (1 + put peer 15 16 + put (rclassOf cls) 2 32) 0).ivAdd ivBroken 1
  b.sendFsync peer cls

/-- A command ended before all its packets are covered (R123 step 4, R127): it meets a status, and everything not
finished counts as failed, what a PASS had consumed among it (R247). -/
def Block.endCmd (b : Block) (id status chip : Nat) : Block :=
  let open_ := fun (c : Cmd) =>
    match c.group with
    | none => (b.req.posted.filter fun p => p.cmd == id).length
    | some (key, cls) => let g := b.gflow key cls; if g.cmd == some id then g.issued * g.members - g.count else 0
  (b.setCmd id fun c =>
    { (c.meet status 0 chip) with failCount := c.failCount + b.weights c.plans + c.rowsLeft + open_ c + c.tags + b.passTaken c.stream id,
                                  plans := [], rowsLeft := 0,
                                  tags := 0, ended := true, passOpen := false, tickHold := none }).dropPass id

/-- A live command that has not been ended by its deadline or by a flow break (R128). -/
def Block.openCmd (b : Block) (id : Nat) : Option Cmd := (b.cmd? id).filter fun c => !c.ended

/-- A packet of a command fails; one counted before does not count again (R117). -/
def Cmd.fail (c : Cmd) (k : Nat) : Cmd :=
  if c.failed.contains k then c else { c with failCount := c.failCount + 1, failed := c.failed ++ [k] }

/-- Posted packets finished: OK ones add their bytes, the one the receipt names may fail (R112). -/
def Block.finishPosted (b : Block) (ps : List Posted) (failPos : Option Nat) (status reason chip : Nat) : Block :=
  ps.foldl (fun b p =>
    if failPos == some p.pos && status != 0 then
      b.setCmd p.cmd fun c => if c.ended then c else (c.meet status reason chip).fail p.k
    else b.setCmd p.cmd fun c => if c.ended then c else { c with bytesOk := c.bytesOk + p.n })
    { b with req := { b.req with posted := b.req.posted.filter fun x => !(ps.contains x) } }

/-- A receipt with count `c` finishes every packet up to position `c` (R112, R128). A count past the positions issued is discarded as
late (DESIGN CHOICE, log entry 73). -/
def Block.receipt (b : Block) (peer cls c status reason : Nat) : Block :=
  let f := b.flow peer cls
  if f.fresh then b.bump (fo 0x090) else
  let k := subMod 24 c f.covered
  let open_ := subMod 24 f.issued f.covered
  let mine := b.req.posted.filter fun p =>
    p.peer == peer && p.cls == cls && decide (subMod 24 p.pos f.covered ≤ k) && p.pos != f.covered
  if open_ < k || (k != 0 && mine.isEmpty && f.broken.isNone) || (!mine.isEmpty && mine.all fun p => (b.openCmd p.cmd).isNone) then
    let b := b.late 0x22 peer (rclassOf cls) 0 c
    if open_ < k then b
    else (b.setFlow { f with covered := c }).finishPosted mine none 0 0 peer
  else ((b.setFlow { f with covered := c }).finishPosted mine (some c) status reason peer).reqPump

/-- A group command's posted packets are covered in the sense of R309 once receipts and notes answer for every member-packet. -/
def Block.noteGroup (b : Block) (key cls id : Nat) : Block :=
  let g := b.gflow key cls
  if g.count + g.noted < g.issued * g.members then b
  else { b with req := { b.req with posted := b.req.posted.map fun p => if p.cmd == id then { p with noted := true } else p } }

/-- The packets of a group flow's command that every member has finished are no longer outstanding (R131). -/
def Block.dropFinished (b : Block) (key cls id : Nat) : Block :=
  let g := b.gflow key cls
  let least := (g.by_.map (·.2)).foldl min g.issued
  if g.by_.length < g.members then b
  else { b with req := { b.req with posted := b.req.posted.filter fun p =>
    !(p.cmd == id && p.peer == 32768 + key && decide (p.pos ≤ least)) } }

/-- A RECEIPT_MC (R113): discarded when GEN is not the flow's or its command has ended (R124). Each member finishes the packets in
order, so its COUNT says which ones it finished, the last of them with STATUS (R110, R112, R117). A span of a PASS counts once, with the
first of them (R247). -/
def Block.receiptMC (b : Block) (key cls gen count status reason chip : Nat) : Block :=
  let g := b.gflow key cls
  match g.cmd with
  | none => b.late 0x23 chip (rclassOf cls) 0 count
  | some id =>
    if g.gen != gen || (b.openCmd id).isNone then b.late 0x23 chip (rclassOf cls) 0 count else
    let had := ((g.by_.find? fun x => x.1 == chip).map (·.2)).getD 0
    let b := b.setGflow { g with count := g.count + count, by_ := (g.by_.filter fun x => x.1 != chip) ++ [(chip, had + count)] }
    let ok := b.req.posted.filter fun p => p.cmd == id && p.peer == 32768 + key && decide (had < p.pos)
      && decide (p.pos ≤ had + count) && (status == 0 || p.pos != had + count)
    let failed := (b.req.posted.filter fun p => p.cmd == id && p.peer == 32768 + key && p.pos == had + count).map (·.k)
    let once := ((b.cmd? id).map fun c => c.isPass).getD false
    let b := if once then
        { b with req := { b.req with posted := b.req.posted.map fun p => if ok.contains p then { p with n := 0 } else p } }
      else b
    ((b.setCmd id fun c =>
      let c := { c with bytesOk := c.bytesOk + (ok.map fun (p : Posted) => p.n).sum }
      if status == 0 then c
      else { (c.meet status reason chip) with failCount := c.failCount + 1, failed := c.failed ++ failed }).noteGroup key cls id
      |>.dropFinished key cls id).reqPump

/-- Response bytes land at the issuing chip (R97, R108, R115), piece by piece where the landing check found them. -/
def Block.landLocal (b : Block) (c : Cmd) (pieces : List (Nat × Nat × Bool)) (lctr k : Nat) (data : List Byte) : Block :=
  (pieces.foldl (fun (acc : Block × Nat) (x : Nat × Nat × Bool) =>
    let b := acc.1.setCmd c.id fun y => { y with lands := y.lands + 1 }
    (b.hwrite x.2.2 c.ctx x.1 (slice data acc.2 x.2.1) (.localLand c.id lctr x.2.1 k), acc.2 + x.2.1)) (b, 0)).1

/-- A response to a TAG (R114): its data landed, or its status met. -/
def Block.response (b : Block) (e : TagEnt) (status reason chip : Nat) (data : List Byte) (bad : Bool) : Block :=
  let b := { b with req := { b.req with tags := b.req.tags.filter fun x => x.tag != e.tag } }
  match b.cmd? e.cmd with
  | none => b
  | some c =>
    let b := b.setCmd c.id fun x => { x with tags := x.tags - 1 }
    if bad || status != 0 then
      (b.setCmd c.id fun x => { (x.meet (if bad then stPOISON else status) reason chip) with
        failCount := x.failCount + 1 }).reqPump
    else
      let n := if e.want == 0 then (if e.opcode == 0x1A then 16 else 8) else e.want
      let b := b.setCmd c.id fun x => { x with bytesOk := x.bytesOk + n }
      (if e.want == 0 then b else b.landLocal c e.land e.lctr e.k (slice data e.skip e.want)).reqPump

/-- SYNC_ACK (R123, steps 4 and 5). One that R123 discards counts as a late packet (DESIGN CHOICE, log entry 73). -/
def Block.syncAck (b : Block) (peer cls count tag : Nat) : Block :=
  let f := b.flow peer cls
  match f.broken with
  | none => b.late 0x24 peer (rclassOf cls) 0 tag
  | some br =>
    match br.fsyncs.find? fun x => x.1 == tag with
    | none => b.late 0x24 peer (rclassOf cls) 0 tag
    | some (_, pos, _) =>
      let st := if br.cause == 1 then stTORN else if br.cause == 2 then stFLUSHED else stTIMEOUT
      let b := br.cmds.foldl (fun b id => match b.cmd? id with
        | none => b
        | some c => if c.ended then b else b.endCmd id st br.by_) b
      let since := subMod 24 f.issued pos
      let b := b.setFlow { f with issued := (count + since) % 2 ^ 24, covered := count, broken := none, fresh := false }
      let b := { b with req := { b.req with posted := b.req.posted.filter fun p => !(p.peer == peer && p.cls == cls) } }
      let b := b.errRec { type := 0x05, peer, rclass := rclassOf cls, detA := subMod 24 pos count, detB := br.sent }
      (b.trace 0x07 0 0 (2 + put peer 15 16 + put (rclassOf cls) 2 32) (subMod 24 pos count)).reqPump

/-- The posted packet that a note covers in the sense of R309: the note names none, so the oldest of its flow that no note has covered
(DESIGN CHOICE, log entry 67). -/
def Block.notePosted (b : Block) (peer cls : Nat) : Block :=
  match b.req.posted.find? fun p => p.peer == peer && p.cls == cls && !p.noted with
  | none => b
  | some x => { b with req := { b.req with posted := b.req.posted.map fun p => if p == x then { p with noted := true } else p } }

/-- An FSYNC of this chip that a note covers in the sense of R309: the flow is broken, and the FSYNC is no longer waited for. -/
def Block.noteFsync (b : Block) (peer cls tag : Nat) : Block :=
  let f := b.flow peer cls
  match f.broken with
  | none => b
  | some br => b.setFlow { f with broken := some { br with noted := if br.noted.contains tag then br.noted else br.noted ++ [tag] } }

/-- A TORN_NOTE or FLUSHED note (R123 to R125, R128, R309). A note for an FSYNC of a flow that is not broken counts as late (DESIGN
CHOICE, log entry 73). -/
def Block.tornNote (b : Block) (flushed : Bool) (dropOp dropDst reqCtx members tag chip : Nat) : Block :=
  let cause := if flushed then 2 else 1
  let st := if flushed then stFLUSHED else stTORN
  if [0x07, 0x08, 0x09].contains dropOp then
    match (b.flow dropDst (opClass dropOp)).broken with
    | none => b.late 0x25 chip (rclassOf (opClass dropOp)) reqCtx tag
    | some _ => b.noteFsync dropDst (opClass dropOp) tag
  else if nonPosted dropOp then
    match b.req.tags.find? fun e => e.tag == tag with
    | none => b.late 0x25 chip 0 reqCtx tag
    | some e =>
      match b.openCmd e.cmd with
      | none => (b.closeTag e 50).late 0x25 chip 0 reqCtx tag
      | some c => ((b.closeTag e c.timeoutMs).setCmd c.id fun x =>
          { (x.meet st 0 chip) with tags := x.tags - 1, failCount := x.failCount + 1 }).reqPump
  else
    let cls := opClass dropOp
    if isMC dropOp then
      let key := groupKey dropDst
      let g := b.gflow key cls
      if (g.cmd.bind b.openCmd).isNone || g.gen != dropDst / 4096 % 4 then b.late 0x25 chip (rclassOf cls) reqCtx tag
      else
        let g' := if g.torn < cause then { g with torn := cause, tornBy := chip } else g
        (b.setGflow { g' with noted := g.noted + members }).noteGroup key cls (g.cmd.getD 0)
    else
      let mine := b.req.posted.filter fun p => p.peer == dropDst && p.cls == cls
      let gone := mine.all fun p => (b.openCmd p.cmd).isNone
      if (b.flow dropDst cls).broken.isSome then
        (if gone then b.late 0x25 chip (rclassOf cls) reqCtx tag else b).notePosted dropDst cls
      else if mine.isEmpty then b.late 0x25 chip (rclassOf cls) reqCtx tag
      else (b.breakFlow dropDst cls cause chip).notePosted dropDst cls

/-- Fabric-time units in a millisecond: 16 per ns. -/
def msUnits (ms : Nat) : Nat := ms * 16000000

/-- A command's deadline has passed at the last tick edge (R124, R127); timers stand still while creased (R499). -/
def Block.timedOut (b : Block) (c : Cmd) : Bool :=
  match c.timer with
  | none => false
  | some t => !c.ended && !b.creased && decide (msUnits c.timeoutMs < b.time.edge - t) && dOp c.desc != 0x00 && dOp c.desc != 0x15
      && (c.ofFold || dOp c.desc != 0x13)

/-- A command times out (R124, R127): it meets TIMEOUT, its TAGs close, every flow of its open packets breaks. -/
def Block.timeout (b : Block) (c : Cmd) : Block :=
  let b := match c.group with
    | none => b
    | some (key, cls) =>
      let g := b.gflow key cls
      if g.cmd == some c.id && g.torn != 0 then
        b.setCmd c.id fun x => x.meet (if g.torn == 2 then stFLUSHED else stTORN) 0 g.tornBy else b
  let flows := ((b.req.posted.filter fun p => p.cmd == c.id && decide (p.peer < 32768)).map fun p => (p.peer, p.cls)).eraseDups
  let tags := b.req.tags.filter fun e => e.cmd == c.id
  let b := (b.endCmd c.id stTIMEOUT b.chipId).setCmd c.id fun x => { x with expired := true }
  let b := tags.foldl (fun b e => b.closeTag e c.timeoutMs) b
  flows.foldl (fun b f => b.breakFlow f.1 f.2 3 b.chipId) b

/-! ### Time and stalls (R250) -/

/-- Saturating per-stream counters (R253): 0 overruns, 1 input, 2 local, 3 output stalls. -/
def Block.foldBump (b : Block) (s k n : Nat) : Block :=
  let key := 4 * s + k
  { b with fold := { b.fold with ctrs := Tbl.set 0 b.fold.ctrs key (min (2 ^ 48 - 1) (Tbl.get 0 b.fold.ctrs key + n)) } }

/-- What a running program waits for (R250): 1 input, 2 local, 3 output; 0 where it can go on, or is held at a TICK. A PASS that waits for
several things at once is counted by the oldest packet's (DESIGN CHOICE, log entry 66). -/
def Block.stallKind (b : Block) (s : Nat) : Nat :=
  let p := b.prog s
  match p.st with
  | .wait => if p.met == 0 then 1 else 0
  | .fence => 3
  | .done => 3
  | .issuing =>
    match p.head with
    | none => if decide (1 ≤ fOp (b.instr p.pc)) && decide (fOp (b.instr p.pc) ≤ 6) && !(b.cmdRoom (b.streamCtx s)) then 3 else 0
    | some id =>
      match b.cmd? id with
      | none => 0
      | some c =>
        match c.plans with
        | q :: _ => if q.data.isNone then 2 else if b.issueHeld || b.blocked c q then 3 else if q.resOut.isEmpty then 0 else 2
        | [] =>
          if c.rowsLeft != 0 || c.lands != 0 || b.fold.passPkts.any (fun x => x.cmd == id) then 2
          else if c.passOpen then
            (match p.pass with
             | none => 0
             | some ps => if b.fold.staged.any fun x => x.stream == s && x.src == ps.up && decide (ps.inA ≤ x.off)
                 && decide (x.off + x.span ≤ ps.inA + ps.len) then 0 else 1)
          else 0
  | _ => 0

/-- `n` cycles in which a program could not go on, each in one counter (R250), and in the step's sums (R251). -/
def Block.stall (b : Block) (s n : Nat) : Block :=
  match b.stallKind s with
  | 1 => (b.foldBump s 1 n).setProg s fun p => { p with sIn := p.sIn + n }
  | 2 => (b.foldBump s 2 n).setProg s fun p => { p with sLoc := p.sLoc + n }
  | 3 => (b.foldBump s 3 n).setProg s fun p => { p with sOut := p.sOut + n }
  | _ => b

/-- The stalls of a time that has passed, from `old` to now, in cycles of the clock in use (R250). -/
def Block.stalls (b : Block) (old : Nat) : Block :=
  let mhz := b.rf (regAt 0x01 0x840) 51 40
  let n := b.time.now * mhz / 16000 - old * mhz / 16000
  ((List.range 256).filter fun s => (b.prog s).cmd != 0).foldl (fun b s => b.stall s n) b

/-- Fabric time passes to `now`: programs that cannot go on stall meanwhile. -/
def Block.clock (b : Block) (now : Nat) : Block :=
  { b with time := { b.time with now := max b.time.now now, atEdge := b.time.atEdge && decide (now ≤ b.time.now) } }.stalls b.time.now

end Sys2Proof.Machine
end

