-- ==== Sys2Proof/Machine/Dest.lean ====
section
/-!
DEFINITION. The destination side (chapters 2 and 4): arriving requests are checked, landed, counted and answered.
-/

namespace Sys2Proof.Machine

/-- A packet taken out of the inbox, once. -/
def Block.unbox (b : Block) (p : Packet) : Block :=
  if b.dest.inbox.contains p then { b.noteOut p with dest := { b.dest with inbox := b.dest.inbox.erase p } } else b

/-- A packet left in the inbox, or put there: it waits (R149). -/
def Block.rebox (b : Block) (p : Packet) : Block :=
  if b.dest.inbox.contains p then b else { b.noteIn p with dest := { b.dest with inbox := b.dest.inbox ++ [p] } }

/-- Whether two headers belong to one channel (R148): source chip and class. -/
def sameChannel (g h : Slot) : Bool := hSrc g == hSrc h && opClass (hOp g) == opClass (hOp h)

/-- Whether an earlier packet of its channel still waits (R149), in the inbox or for room in pass staging, where it holds its flow
(R233). -/
def Block.behind (b : Block) (p : Packet) : Bool :=
  ((b.dest.inbox.takeWhile fun q => q != p).any fun q => sameChannel q.hdr p.hdr)
  || b.dest.pkts.any fun q => q.window.isSome && sameChannel q.pkt.hdr p.hdr

/-- A request absorbed while the compute domain is down (R34). -/
def Block.absorb (b : Block) (p : Packet) : Block := (b.unbox p).bump (rs 0x070)

/-- The DARN findings of a request's checks (R65, R69, R159): corrected ones counted, others remembered. -/
def Block.found (b : Block) (p : Packet) (ctr : Nat) (f : Finds) : Block :=
  let i := hOff p.hdr / 2 ^ 21
  let b := match f.seg with
    | .good => b
    | .corrected => b.pageErr 0x58 4 0
    | .bad => if b.segBad.contains (segWord i) then b else { b with segBad := segWord i :: b.segBad }
  let b := match f.grp with
    | .good => b
    | .corrected => b.pageErr 0x60 4 0
    | .bad => if b.groupBad.contains (ctr / 64) then b else { b with groupBad := (ctr / 64) :: b.groupBad }
  b.ctrFind ctr f.ctr

/-- A taken-up packet changed. -/
def Block.setPkt (b : Block) (id : Nat) (f : DPkt → DPkt) : Block :=
  { b with dest := { b.dest with pkts := b.dest.pkts.map fun p => if p.id == id then f p else p } }

/-- A taken-up packet. -/
def Block.pkt? (b : Block) (id : Nat) : Option DPkt := b.dest.pkts.find? fun p => p.id == id

/-- The destination's count of a flow. -/
def Block.dflow (b : Block) (src cls : Nat) (mc : Option Nat) : DFlow :=
  (b.dest.flows.find? fun f => f.src == src && f.cls == cls && f.mc == mc).getD { src, cls, mc, silent := b.dest.afterReset && mc.isNone }

/-- The destination's count of a flow changed. -/
def Block.setDflow (b : Block) (f : DFlow) : Block :=
  let rest := b.dest.flows.filter fun x => !(x.src == f.src && x.cls == f.cls && x.mc == f.mc)
  { b with dest := { b.dest with flows := rest ++ [f] } }

/-- A RECEIPT, or a RECEIPT_MC for a group flow (R111 to R113). -/
def Block.sendReceipt (b : Block) (f : DFlow) (status reason : Nat) : Block :=
  let ep := b.injectEpoch 2
  let base := put (rclassOf f.cls) 2 88 + put status 4 60 + put reason 4 56
  if f.silent then b else
  match f.mc with
  | none =>
    (b.setDflow { f with sent := f.count }).inject
      { hdr := mkResp 0x22 ep f.src b.chipId (base + put f.count 24 64) }
  | some k =>
    (b.setDflow { f with sent := f.count }).inject
      { hdr := mkResp 0x23 ep f.src b.chipId
          (base + put (subMod 24 f.count f.sent) 24 64 + put (k / 2 ^ 14) 1 55 + put (k / 2 ^ 12) 2 53 + put k 12 41) }

/-- Whether a packet belongs to a flow. -/
def DPkt.ofFlow (p : DPkt) (src cls : Nat) (mc : Option Nat) : Bool := p.src == src && p.cls == cls && p.mc == mc

/-- Whether an opcode is an FSYNC's (Table 3.6). -/
def isFsync (op : Nat) : Bool := op == 0x07 || op == 0x08 || op == 0x09

/-- Whether a packet of a flow waits at the destination side (R111); an FSYNC is none of its posted packets (R110). -/
def Block.flowWaits (b : Block) (src cls : Nat) (mc : Option Nat) : Bool :=
  (b.dest.pkts.any fun p => p.ofFlow src cls mc && !(isFsync p.opcode))
  || (b.dest.inbox.any fun q => hSrc q.hdr == src && opClass (hOp q.hdr) == cls && !(isFsync (hOp q.hdr))
      && (if isMC (hOp q.hdr) then mc == some (hDst q.hdr) else mc.isNone))

/-- Finished packets of a flow counted strictly in arrival order (R110, R149): counters advance, receipts leave (R111),
an FSYNC is answered with its count and takes no receipt (R123; DEDUCED, log entry 37). By fuel. -/
def Block.settle : Nat → Block → Nat → Nat → Option Nat → Block
  | 0, b, _, _, _ => b
  | n + 1, b, src, cls, mc =>
    match b.dest.pkts.find? fun p => p.ofFlow src cls mc with
    | none => b
    | some p =>
      if !p.done then b else
      let b := { b with dest := { b.dest with pkts := b.dest.pkts.filter fun q => q.id != p.id } }
      let b := if p.status == 0 then b.ctrAdvance p.ctr p.bytes else b
      let f := b.dflow src cls mc
      let f := { f with count := (f.count + 1) % 2 ^ 24,
                        silent := f.silent && !(isFsync p.opcode) }
      let b := b.setDflow f
      let b :=
        if isFsync p.opcode then
          b.inject { hdr := mkResp 0x24 (b.injectEpoch 2) src b.chipId
                      (put (rclassOf cls) 2 88 + put f.count 24 64 + put (hTag p.pkt.hdr) 16 0) }
        else if p.status != 0 then b.sendReceipt f p.status p.reason
        else if decide (16 ≤ subMod 24 f.count f.sent) || !(b.flowWaits src cls mc) then b.sendReceipt f 0 0
        else b
      Block.settle n b src cls mc

/-- A flow's finished packets counted. -/
def Block.settleFlow (b : Block) (src cls : Nat) (mc : Option Nat) : Block :=
  b.settle (b.dest.pkts.length + 1) src cls mc

/-- A taken-up reducing store or atomic whose range is free starts (R28, R105, R272): a unit that reads nothing enters the
dispatch order (R181), else its read goes out, with LOCK. -/
def Block.startPkt (b : Block) (id : Nat) : Block :=
  match b.pkt? id with
  | none => b
  | some p =>
    if p.opcode == 0x04 || p.opcode == 0x0C then
      let prof := profileOf p.profile p.profileAB
      let b := b.setPkt id fun q => { q with started := true }
      if prof.op == 0 then
        { b with mangle := { b.mangle with queue := b.mangle.queue ++
          [{ kind := .reduce id, profile := p.profile, profileAB := p.profileAB, w := slotsBytes p.pkt.data, m := [],
             stream := prof.stream, tick := b.time.tick }] } }
      else b.access .rd p.unc true false p.ctx p.haddr p.span [] 0 (.reduceRead id)
    else
      b.hatomic (p.opcode == 0x1A) p.unc p.ctx p.haddr (if p.opcode == 0x1A then 0 else p.opcode - 0x10) (slotsBytes p.pkt.data)
        (.atomic id)

/-- A taken-up packet starts, or is held until its range is free (R28, R147). -/
def Block.startOrHold (b : Block) (id haddr n : Nat) : Block :=
  if b.mustWait haddr n then b.holdAccess haddr n (.pkt id) else b.startPkt id

/-- The held accesses that can go now go, in the order in which they came (R147). -/
def Block.releaseWaiters (b : Block) : Block :=
  b.dest.waiters.foldl (fun b w => match w.2.2 with
    | .pkt id => b.startOrHold id w.1 w.2.1
    | .write unc ctx data job =>
      if b.mustWait w.1 w.2.1 then b.holdAccess w.1 w.2.1 w.2.2 else b.offerJob .wr unc false false ctx w.1 w.2.1 data 0 job) { b with dest := { b.dest with waiters := [] } }

/-- A taken-up packet has finished with a status (R25, R26); what waited for its range goes on (R147). -/
def Block.pktDone (b : Block) (id status reason : Nat) : Block :=
  match b.pkt? id with
  | none => b
  | some p =>
    let b := b.setPkt id fun q =>
      { q with done := true, status := if q.status == 0 then status else q.status,
               reason := if q.status == 0 then reason else q.reason }
    (b.settleFlow p.src p.cls p.mc).releaseWaiters

/-- A response (R114, Table 3.8). -/
def Block.respond (b : Block) (dst ctx tag status reason : Nat) (data : List Byte) : Block :=
  let slots := bytesSlots data
  let op := if slots.isEmpty then 0x21 else 0x20
  b.inject
    { hdr := mkResp op (b.injectEpoch 2) dst b.chipId
        (put ctx 12 78 + put (slots.length - 1) 8 70 + put status 4 66 + put reason 4 62 + put tag 16 0),
      data := slots }

/-- Fabric address that a request names, for FAIL_ADDR (Table 2.16). The spec lays out no address in a reserved opcode: class 0x0
and bits [61:46] are the model's choice (DESIGN CHOICE, log entry 63). -/
def reqAddr (h : Slot) : Word :=
  let op := hOp h
  if isMC op then (if bitN (hDst h) 14 then mkFa 0xF 0 (hOff h) else mkFa 0xE (hDst h % 4096) (hOff h))
  else if op == 0x05 || op == 0x06 then mkFa 1 (hDst h) (hOff h)
  else if op == 0x0D || op == 0x0E then mkFa 2 (hDst h) (hOff h)
  else mkFa 0 (hDst h) (hOff h)

/-- Whether this chip is the target, or a member of the target group (R80, Table 2.7 step 2). -/
def Block.isTarget (b : Block) (h : Slot) : Bool :=
  if isMC (hOp h) then
    (if bitN (hDst h) 14 then b.chipInSeal b.chipId else inBox (b.groupEntry (hDst h % 4096)) b.chipId)
  else hDst h == b.chipId

/-- Permission bit that a memory request needs (Table 2.6). -/
def permOf (op : Nat) : Nat :=
  if op == 0x01 then 60 else if op == 0x04 || op == 0x0C then 57
  else if decide (0x10 ≤ op) && decide (op ≤ 0x1A) then 58 else 59

/-- Whether a memory request's header is well formed (Table 2.7 step 1, R104). -/
def wellFormedReq (h : Slot) : Bool :=
  let op := hOp h
  !(reservedReq op) && !(isMC op && bitN (hDst h) 14 && hDst h % 4096 != 0) && !((op == 0x03 || op == 0x0B) && decide (fld h 20 17 < fld h 24 21))

/-- Table 2.7 and the profile check of R191 on a memory request that touches `n` bytes. -/
def Block.memCheck (b : Block) (p : Packet) (n ctr : Nat) (prof : Option Profile) : Check :=
  let h := p.hdr
  let fail := fun (s r : Nat) => ({ status := s, reason := r } : Check)
  if !(wellFormedReq h) then fail stABSENT 1
  else if !(b.isTarget h) then fail stABSENT 2
  else
    let c := b.segCheck { off := hOff h, n, perms := [permOf (hOp h)], chip := hSrc h, ctx := hCtx h, key := hKey h, ctr }
    match prof with
    | none => c
    | some f =>
      let owner := fld (b.seg (hOff h / 2 ^ 21)) 56 45
      if c.status != 0 then c
      else if !f.valid || (!f.shared && f.owner != owner)
          || (isMX f.wire && (decide (hSlots h < 8) || (segBlocks f.wire (slotsBytes p.data)).isEmpty)) then fail stDENIED 0xF
      else c

/-- A failed request counted and captured (R67). -/
def Block.failReq (b : Block) (h : Slot) (c : Check) : Block :=
  b.failed c.status c.reason (hCtx h) (hSrc h) (hOp h) (reqAddr h)

/-- A packet recorded as taken up, at the end of the arrival order. -/
def Block.takeUp (b : Block) (d : DPkt) : Block :=
  { b with dest := { b.dest with pkts := b.dest.pkts ++ [{ d with id := b.dest.nextId, tick := b.time.tick }], nextId := b.dest.nextId + 1 } }

/-- Whether the host channels can be used at all (R280): some channel is neither quiesced nor disabled. -/
def Block.hostUsable (b : Block) : Bool := (List.range 12).any b.chanUp

/-- The pass window that holds a span, whose stream's context owns the granule (R232). -/
def Block.windowFor (b : Block) (off n owner : Nat) : Option Nat :=
  (List.range 256).find? fun s =>
    match (b.fold.progs.getD s {}).win with
    | none => false
    | some (lo, hi) => decide (lo ≤ off) && decide (off + n ≤ hi) && b.streamCtx s == owner

/-- Bytes in pass staging (R232). -/
def Block.stageBytes (b : Block) : Nat := ((b.fold.staged.filter fun x => !x.spilled).map fun x => x.data.length).sum

/-- Bytes in the pass spill area (Table 6.9). -/
def Block.spillBytes (b : Block) : Nat := ((b.fold.staged.filter fun x => x.spilled).map fun x => x.data.length).sum

/-- The lowest 4 KiB block of the pass spill area that holds no spilled packet (R233). -/
def Block.spillSlot (b : Block) : Option Nat :=
  findIdx (min (2 ^ b.rf (fo 0x108) 4 0 / 4096) (b.fold.staged.length + 1)) fun k => !(b.fold.staged.any fun x => x.spilled && x.place == k)

/-- Whether an intercepted packet goes to staging, to spill, or must wait (R232, R233). -/
def Block.stagePlace (b : Block) (n : Nat) : Option Bool :=
  if decide (b.stageBytes + n ≤ 4 * 2 ^ 20) then some false
  else if b.rf (fo 0x108) 63 63 == 1 && b.spillSlot.isSome then some true
  else none

/-- Base of the pass spill area (Table 6.9). -/
def Block.passSpillBase (b : Block) : Nat := b.rf (fo 0x108) 51 20 * 2 ^ 20

/-- An intercepted packet staged (R232, R233); one that is spilled takes the lowest free 4 KiB block of the spill area
(DESIGN CHOICE, log entry 50). -/
def Block.stage (b : Block) (x : Staged) : Block :=
  let place := (b.spillSlot.getD 0)
  let x := { x with id := b.fold.nextStaged, place := if x.spilled then place else 0 }
  let b := { b with fold := { b.fold with staged := b.fold.staged ++ [x], nextStaged := x.id + 1 } }
  if x.spilled then b.hwrite true 0 (b.passSpillBase + 4096 * x.place) x.data .record else b

/-- An intercepted packet that waits for room is staged once there is some, in arrival order; it is counted as it is staged
(R232, R233). A window disarmed meanwhile leaves it to land as an ordinary reducing store (R233). -/
def Block.stagePump (b : Block) : Block :=
  (b.dest.pkts.filter fun p => p.window.isSome).foldl (fun b p =>
    match p.window with
    | none => b
    | some s =>
      let data := slotsBytes p.pkt.data
      if (b.dest.pkts.find? fun q => q.window.isSome).map (·.id) != some p.id then b
      else if b.windowFor p.off p.span p.owner == some s then
        match b.stagePlace data.length with
        | none => b
        | some sp =>
          ((b.stage { id := 0, stream := s, src := p.src, off := p.off, span := p.span, profile := p.profile, profileAB := p.profileAB,
                      data, spilled := sp }).setPkt p.id fun q => { q with window := none, done := true, ctr := 0 }).settleFlow p.src p.cls p.mc
      else (b.setPkt p.id fun q => { q with window := none }).startOrHold p.id p.haddr p.span) b

/-- An arriving request met by the destination side: discarded as overtaken by a new epoch (R311), absorbed while the
domain is down, left waiting behind its channel, or taken up by `go` (R34, R61, R149). -/
def Block.arrive (b : Block) (p : Packet) (mine : Bool) (go : Block → Block) : Block :=
  let old := bit p.hdr 120 != (b.fwd.current == 1)
  let pair := (hSrc p.hdr, opClass (hOp p.hdr))
  if !mine then b
  else if old && b.fwd.newSeen.contains pair then (b.unbox p).bump (rt 0x0E0)
  else if !b.up then b.absorb p
  else if b.behind p || !b.hostUsable then b.rebox p
  else
    let b := if isSmall p.hdr then b.bump (cn 0x090) else b
    let b := if old || b.fwd.newSeen.contains pair then b else { b with fwd := { b.fwd with newSeen := pair :: b.fwd.newSeen } }
    go (b.unbox p)

/-- The group-flow key of an _MC packet. -/
def mcKey (h : Slot) : Option Nat := if isMC (hOp h) then some (hDst h) else none

/-- The common fields of a taken-up packet. -/
def dpkt (p : Packet) : DPkt :=
  { id := 0, pkt := p, src := hSrc p.hdr, ctx := hCtx p.hdr, cls := opClass (hOp p.hdr), opcode := hOp p.hdr, mc := mcKey p.hdr }

/-- Bytes that a STORE or STORE_PART writes, in address order (R103, R106). -/
def storeBytes (p : Packet) : List Byte :=
  if hOp p.hdr % 8 == 3 then slice (slotsBytes p.data) (fld p.hdr 24 21) (hBytes p.hdr) else slotsBytes p.data

/-- A failed posted packet: counted in its flow, answered with a receipt (R26, R111). -/
def Block.failPosted (b : Block) (p : Packet) (c : Check) : Block :=
  let b := (b.failReq p.hdr c).takeUp { (dpkt p) with done := true, status := c.status, reason := c.reason }
  b.settleFlow (hSrc p.hdr) (opClass (hOp p.hdr)) (mcKey p.hdr)

/-- An arriving STORE, STORE_PART or _MC form (R25, R26, R61, R103, R142). -/
def Block.arriveStore (b : Block) (p : Packet) (f : Finds) : Block :=
  let ctr := hTag p.hdr
  let b := b.found p ctr f
  let c := b.memCheck p (hBytes p.hdr) ctr none
  if c.status != 0 then b.failPosted p c
  else if p.bad then
    (b.takeUp { (dpkt p) with done := true, status := stPOISON }).settleFlow (hSrc p.hdr) (opClass (hOp p.hdr)) (mcKey p.hdr)
  else
    let id := b.dest.nextId
    let b := b.takeUp { (dpkt p) with ctr, bytes := hBytes p.hdr, haddr := c.haddr, unc := c.unc, span := hBytes p.hdr, landing := true }
    b.hwrite c.unc (hCtx p.hdr) c.haddr (storeBytes p) (.land id)

/-- An arriving REDUCE or REDUCE_MC (R28, R190, R191, R232, R272). -/
def Block.arriveReduce (b : Block) (p : Packet) (f : Finds) : Block :=
  let ctr := hTag p.hdr
  let b := b.found p ctr f
  let k := fld p.hdr 20 17
  let pv := (b.peek (mg 0 (0x800 + 8 * k))).toNat
  let pab := (b.peek (mg 0 (0x880 + 8 * k))).toNat
  let prof := profileOf pv pab
  let data := slotsBytes p.data
  let span := reduceSpan prof data
  let c := b.memCheck p span ctr (some prof)
  let owner := fld (b.seg (hOff p.hdr / 2 ^ 21)) 56 45
  let settle := fun (b : Block) => b.settleFlow (hSrc p.hdr) (opClass (hOp p.hdr)) (mcKey p.hdr)
  if c.status != 0 then b.failPosted p c
  else if p.bad then settle (b.takeUp { (dpkt p) with done := true, status := stPOISON })
  else
    let id := b.dest.nextId
    let d : DPkt := { (dpkt p) with ctr, bytes := hBytes p.hdr, haddr := c.haddr, unc := c.unc, span, profile := pv, profileAB := pab,
                                    owner, off := hOff p.hdr }
    match (if isMC (hOp p.hdr) then none else b.windowFor (hOff p.hdr) span owner) with
    | some s =>
      match (if b.dest.pkts.any fun q => q.window.isSome then none else b.stagePlace data.length) with
      | none => (b.bump (fo 0x120)).takeUp { d with window := some s }
      | some sp =>
        let b := b.stage { id := 0, stream := s, src := hSrc p.hdr, off := hOff p.hdr, span, profile := pv, profileAB := pab,
                           data, spilled := sp }
        settle (b.takeUp { (dpkt p) with done := true })
    | none => (b.takeUp d).startOrHold id c.haddr span

/-- The local data of a reducing store has returned: its unit enters the dispatch order (R181). -/
def Block.reduceReady (b : Block) (id : Nat) (data : List Byte) (bad : Bool) : Block :=
  match b.pkt? id with
  | none => b
  | some p =>
    let prof := profileOf p.profile p.profileAB
    { b with mangle := { b.mangle with queue := b.mangle.queue ++
      [{ kind := .reduce id, profile := p.profile, profileAB := p.profileAB, w := slotsBytes p.pkt.data, m := data,
         stream := prof.stream, bad, tick := b.time.tick }] } }

/-- The unit of a reducing store is done: its result is written with UNLOCK, or an UNLOCK that enables no byte (R180, R272); the
range is free once that is answered (R147). -/
def Block.reduceDone (b : Block) (id : Nat) (result : List Byte) (bad : Bool) : Block :=
  match b.pkt? id with
  | none => b
  | some p =>
    let locked := !(b.locksIn p.haddr p.span).isEmpty
    if !bad then
      (b.setPkt id fun q => { q with landing := true }).access .wr p.unc false locked p.ctx p.haddr result.length result 0 (.land id)
    else if locked then
      (b.setPkt id fun q => { q with status := stPOISON }).access .wr p.unc false true p.ctx p.haddr p.span [] 0 (.land id)
    else b.pktDone id stPOISON 0

/-- A non-posted request that failed: RESP_STATUS (R26). -/
def Block.failNonPosted (b : Block) (p : Packet) (c : Check) : Block :=
  (b.failReq p.hdr c).respond (hSrc p.hdr) (hCtx p.hdr) (hTag p.hdr) c.status c.reason []

/-- An arriving LOAD (R108, R136). -/
def Block.arriveLoad (b : Block) (p : Packet) (f : Finds) : Block :=
  let b := b.found p 0 f
  let c := b.memCheck p (hBytes p.hdr) 0 none
  if c.status != 0 then b.failNonPosted p c
  else
    let id := b.dest.nextId
    let b := b.takeUp { (dpkt p) with haddr := c.haddr, unc := c.unc }
    b.hread c.unc (hCtx p.hdr) c.haddr (hBytes p.hdr) (.load id)

/-- An arriving atomic, 8 or 16 bytes (R105, R140, R147). R105 names no status for a CAS16 whose offset is no multiple of 16: it
is answered ABSENT, reason 0x1, after every step of Table 2.7 (DESIGN CHOICE, log entry 63). -/
def Block.arriveAtomic (b : Block) (p : Packet) (f : Finds) : Block :=
  let b := b.found p 0 f
  let op := hOp p.hdr
  let c := b.memCheck p (hBytes p.hdr) 0 none
  if c.status != 0 then b.failNonPosted p c
  else if op == 0x1A && hOff p.hdr % 16 != 0 then b.failNonPosted p { status := stABSENT, reason := 1 }
  else if p.bad then b.respond (hSrc p.hdr) (hCtx p.hdr) (hTag p.hdr) stPOISON 0 []
  else
    let id := b.dest.nextId
    let b := b.takeUp { (dpkt p) with haddr := c.haddr, unc := c.unc, span := hBytes p.hdr }
    b.startOrHold id c.haddr (hBytes p.hdr)

/-- A non-posted request answered with data read from the host, or with POISON (R105, R266). -/
def Block.answered (b : Block) (id : Nat) (data : List Byte) (bad : Bool) : Block :=
  match b.pkt? id with
  | none => b
  | some p =>
    let b := { b with dest := { b.dest with pkts := b.dest.pkts.filter fun q => q.id != id } }
    if bad then b.respond p.src p.ctx (hTag p.pkt.hdr) stPOISON 0 []
    else b.respond p.src p.ctx (hTag p.pkt.hdr) 0 0 data

/-- Counter index of a class 0x1 header (Table 3.7). -/
def hCtr (h : Slot) : Nat := fld h 61 46

/-- Steps 1 and 2 of Table 2.7, then R69, for a class 0x1 request. -/
def Block.ctrReqCheck (b : Block) (p : Packet) (perm : Nat) : Check :=
  if !(b.isTarget p.hdr) then { status := stABSENT, reason := 2 }
  else b.ctrCheck (hCtr p.hdr) perm (hSrc p.hdr) (hCtx p.hdr) (hKey p.hdr)

/-- An arriving SIGNAL (R69, R103, R152, R159). -/
def Block.arriveSignal (b : Block) (p : Packet) (f : Finds) : Block :=
  let b := b.found p (hCtr p.hdr) f
  let c := b.ctrReqCheck p 59
  if c.status != 0 then b.failPosted p c
  else
    let settle := fun (b : Block) => b.settleFlow (hSrc p.hdr) (opClass (hOp p.hdr)) none
    if p.bad then settle (b.takeUp { (dpkt p) with done := true, status := stPOISON })
    else
      let amount := word (ofBytes (slice (slotsBytes p.data) 0 8))
      let b := b.ctrChange (hCtr p.hdr) (· + amount)
      settle (b.takeUp { (dpkt p) with done := true })

/-- An arriving CTR_READ (R69, R103, R159). -/
def Block.arriveCtrRead (b : Block) (p : Packet) (f : Finds) : Block :=
  let b := b.found p (hCtr p.hdr) f
  let c := b.ctrReqCheck p 60
  if c.status != 0 then b.failNonPosted p c
  else if b.ctrBad.contains (hCtr p.hdr) then b.respond (hSrc p.hdr) (hCtx p.hdr) (hTag p.hdr) stPOISON 0 []
  else b.respond (hSrc p.hdr) (hCtx p.hdr) (hTag p.hdr) 0 0 (toBytes 16 (b.ctrVal (hCtr p.hdr)).toNat)

/-- An arriving FSYNC (R110, R123): counted in its flow behind every earlier packet, then answered. -/
def Block.arriveFsync (b : Block) (p : Packet) : Block :=
  (b.takeUp { (dpkt p) with done := true }).settleFlow (hSrc p.hdr) (opClass (hOp p.hdr)) none

end Sys2Proof.Machine
end

