-- ==== Sys2Proof/Machine/Mangle.lean ====
section
/-!
DEFINITION. The Mangle engines at work (§5.1, §5.8): dispatch, results, and what follows a unit.
-/

namespace Sys2Proof.Machine

/-- Whether an engine is idle in the sense of R181. -/
def Block.engineIdle (b : Block) (e : Nat) : Bool := b.up && b.engineState e == 0

/-- Path of a unit (Table 5.13): 1 reducing store, 2 PASS, 3 conversion unit, 4 Wring. -/
def MUnit.path (u : MUnit) : Nat :=
  match u.kind with
  | .wring .. => 4
  | .reduce _ => if (profileOf u.profile u.profileAB).op == 0 then 3 else 1
  | .pass .. => if (profileOf u.profile u.profileAB).op == 0 then 3 else 2

/-- The rounding mode of a unit (R195, R197, R206). -/
def Block.modeOf (b : Block) (u : MUnit) : Mode :=
  let g := Tbl.get ({} : Gen) b.mangle.gens u.stream
  let p := profileOf u.profile u.profileAB
  let wr := u.path == 4
  { stoch := if wr then u.stoch else p.round, sat := if wr then false else p.sat,
    fixed := if bit (b.peek (mg 0 0x910)) 63 then some (b.rf (mg 0 0x910) 15 0) else none, seed := g.seed, pos := g.pos }

/-- A unit's computation, when an engine takes it (R177 to R206): what it will write, and the draws it takes. A PASS packet that is landed
and forwarded in another format is rounded twice, its landing first (DESIGN CHOICE, log entry 66). A unit that a bad operand ends counts no
cycle (DESIGN CHOICE, log entry 74). -/
def Block.compute (b : Block) (u : MUnit) : Block × Held :=
  if u.bad then (b, { unit := u, landed := [], sent := [], overs := 0, nan := 0, nonfinite := 0, cycles := 0 }) else
  let md := b.modeOf u
  let (h, pos) := match u.kind with
    | .wring .. =>
      let o := wringUnit u.src u.wire md u.w u.m
      (({ unit := u, landed := o.residual, sent := o.segment, overs := o.overs, nan := o.nan, nonfinite := o.nonfinite,
          cycles := o.cycles } : Held), o.pos)
    | .pass cmd pk =>
      let p := profileOf u.profile u.profileAB
      let x := b.fold.passPkts.find? fun x => x.cmd == cmd && x.k == pk
      let lands := match x with | none => false | some y => !y.land.isEmpty
      let sends := match x with | none => false | some y => y.sends
      let l := reduceUnit p md (p.out == 0xF) u.w u.m
      let o := reduceUnit p (if lands then { md with pos := l.pos } else md) true u.w u.m
      if p.out == 0xF || !sends then
        (({ unit := u, landed := l.landed, sent := l.sent, overs := l.overs, nan := l.nan, nonfinite := 0, cycles := o.cycles } : Held), l.pos)
      else if lands then
        (({ unit := u, landed := l.landed, sent := o.sent, overs := l.overs + o.overs, nan := l.nan + o.nan, nonfinite := 0,
            cycles := o.cycles } : Held), o.pos)
      else (({ unit := u, landed := [], sent := o.sent, overs := o.overs, nan := o.nan, nonfinite := 0, cycles := o.cycles } : Held), o.pos)
    | .reduce _ =>
      let o := reduceUnit (profileOf u.profile u.profileAB) md false u.w u.m
      (({ unit := u, landed := o.landed, sent := [], overs := o.overs, nan := o.nan, nonfinite := 0,
          cycles := o.cycles } : Held), o.pos)
  let g := Tbl.get ({} : Gen) b.mangle.gens u.stream
  ({ b with mangle := { b.mangle with gens := Tbl.set ({} : Gen) b.mangle.gens u.stream { g with pos } } }, h)

/-- Context of a unit (R473): the granule's owner for a landing, the stream's for outbound work. -/
def Block.unitCtx (b : Block) (u : MUnit) : Nat :=
  match u.kind with
  | .reduce id => ((b.pkt? id).map fun p => p.owner).getD 0
  | .pass cmd _ => ((b.cmd? cmd).map fun c => c.ctx).getD 0
  | .wring cmd _ => ((b.cmd? cmd).map fun c => c.ctx).getD 0

/-- Idle engines take the units that entered the dispatch order earliest (R181); among idle engines the
lowest-numbered one (DESIGN CHOICE, log entry 9). By fuel. -/
def Block.dispatch : Nat → Block → Block
  | 0, b => b
  | n + 1, b =>
    match b.mangle.queue, (List.range 12).find? b.engineIdle with
    | u :: q, some e =>
      let (b, h) := ({ b with mangle := { b.mangle with queue := q } }).compute u
      Block.dispatch n ((b.noteTook e (b.unitCtx u)).setEngine e fun g => { g with held := some h, since := b.time.now })
    | _, _ => b

/-- Every unit that an idle engine can take is taken. -/
def Block.dispatchAll (b : Block) : Block := b.dispatch 12

/-- A unit's counts (Tables 5.11, 5.12, 5.15). -/
def Block.countUnit (b : Block) (e : Nat) (h : Held) (bad : Bool) : Block :=
  let b := (b.bumpN (mg e 0x050) h.cycles).bumpN (pathCounter h.unit.path) h.cycles
  if bad then b.bump (mg e 0x068)
  else (((b.bump (mg e 0x048)).bumpN (mg e 0x058) h.nan).bumpN (mg e 0x060) h.overs).bumpN (mg 0 0x938) h.nonfinite

/-- A Wring unit is done: its packet may leave, its residual written just before (R180, R207, R208). -/
def Block.wringDone (b : Block) (cmd pk : Nat) (h : Held) (bad : Bool) : Block :=
  (b.setPlan cmd pk fun q => if bad then { q with poison := true } else { q with data := some h.sent, resOut := h.landed }).reqPump

end Sys2Proof.Machine
end

