-- ==== Sys2Proof/Machine/Fold.lean ====
section
/-!
DEFINITION. The Fold sequencer (chapter 6): operands, the opcodes, PASS, completion and stopping of programs.
-/

namespace Sys2Proof.Machine

/-- Value of an operand specifier (R226, Table 6.2); none where REG exceeds 61 with IDX or OUTER. -/
def Prog.operand (p : Prog) (spec : Nat) : Option Word :=
  let reg := bits spec 7 2
  let idx := bitN spec 1
  let outer := bitN spec 0
  let a := fun (i : Nat) => p.a.getD i 0
  if (idx || outer) && decide (61 < reg) then none
  else
    let v := a reg
    let st := a (reg + 1)
    let step := signed 33 (fld st 32 0)
    let phase : Int := fld st 62 48
    let m := fld st 47 33
    let raw := if bit st 63 then phase - p.n1 else phase + p.n1
    let j := if m == 0 then raw else raw % (m : Int)
    let v := if idx then v + BitVec.ofInt 64 (j * step) else v
    some (if outer then v + word (p.n0 * (a (reg + 2)).toNat) else v)

/-- Length in a register (R227). -/
def Prog.len (p : Prog) (reg : Nat) : Nat := fld (p.a.getD reg 0) 39 0

/-- The FOLD command that a stream's program serves. -/
def Block.foldCmd (b : Block) (s : Nat) : Option Cmd := b.cmd? (b.prog s).cmd

/-- A program ends: its window is disarmed and the FOLD's record written (R245, R247 to R249). One stopped for a cause 0x1 to 0x4 has
DENIED and REASON 0x0, unless its data instructions met a higher status. -/
def Block.foldEnd (b : Block) (s : Nat) : Block :=
  let p := b.prog s
  match b.foldCmd s with
  | none => b
  | some c =>
    let c := if p.st = .stopping then
        (if p.cause == 5 then c.meet p.stopStatus 0 (c.first p.stopStatus b.chipId)
         else if rank c.status ≤ rank stDENIED then { c with status := stDENIED, reason := 0, failChip := c.first stDENIED b.chipId }
         else c) else c
    let b := (b.disarm s).setProg s fun q => { q with st := .queue, cmd := 0, head := none, pass := none }
    (b.complete c).soloCheck

/-- Whether a data instruction of the stream's program has not completed. -/
def Block.foldOpen (b : Block) (s : Nat) : Bool := b.req.cmds.any fun c => c.stream == s && c.ofFold

/-- A FENCE is released, or DONE or a stop ends the program, once no data instruction is open (R243, R245, R248). -/
def Block.foldSettle (b : Block) (s : Nat) : Block :=
  let p := b.prog s
  if p.cmd == 0 || b.foldOpen s then b
  else if p.st = .fence then
    let b := b.setPc s (p.pc + 1)
    if (b.prog s).st = .stopping then b.foldEnd s else b
  else if p.st = .done || p.st = .stopping then b.foldEnd s
  else b

/-- A program stopped, and ended at once where nothing is open. -/
def Block.foldHalt (b : Block) (s cause status : Nat) : Block := (b.foldStop s cause status (b.prog s).pc).foldSettle s

/-- The program counter moved on, and a program that this stopped ended where nothing is open. -/
def Block.foldNext (b : Block) (s : Nat) : Block := (b.setPc s ((b.prog s).pc + 1)).foldSettle s

/-- Whether a stream is ready to issue an instruction (R218): its program runs with nothing at its head, and Table 3.15 has room for
another command where the instruction is a data instruction (R230). -/
def Block.foldReady (b : Block) (s : Nat) : Bool :=
  let p := b.prog s
  p.cmd != 0 && p.st == .issuing && p.head.isNone && (decide (6 < fOp (b.instr p.pc)) || b.cmdRoom (b.streamCtx s))

/-- The stream that round-robin order serves next (R218): the first ready one after the last served. -/
def Block.nextFold (b : Block) : Option Nat :=
  ((List.range 256).map fun k => (b.fold.last + k + 1) % 256).find? b.foldReady

/-- An instruction fetched at the head of a stream whose program is issuing (R218, R223, R225): none where it is another stream's turn,
or where the stream holds another opcode there. -/
def Block.foldFetch (b : Block) (s op : Nat) (d : Darn) (go : Block → Slot → Block) : Block :=
  let p := b.prog s
  let i := b.instr p.pc
  if b.nextFold != some s || fOp i != op || !b.up || b.rst.draining || b.rst.engines.contains 12 then b
  else
    let step := fun (b : Block) =>
      let b := { b with fold := { b.fold with last := s, lastAt := b.time.now } }.noteTook 12 (b.streamCtx s)
      if bit (b.peek (tr (0x050 + 8 * (s / 64)))) (s % 64) then
        b.trace 0x0E (b.streamCtx s) s (put p.pc 14 0 + put op 4 14) (put p.n0 20 0 + put p.n1 20 20 + put p.n2 20 40)
      else b
    if b.fold.bad.contains p.pc then b.foldHalt s 5 stPOISON
    else match d with
    | .good => go (step b) i
    | .corrected => go (step (b.pageErr 0x40 4 0)) i
    | .bad => ({ b with fold := { b.fold with bad := if b.fold.bad.contains p.pc then b.fold.bad else p.pc :: b.fold.bad } }).foldHalt
        s 5 stPOISON

/-- A data instruction becomes a command of its own (R230), under the FOLD's context, keys and timeout (R216, R228). -/
def Block.foldIssue (b : Block) (s : Nat) (c : Cmd) : Block :=
  let id := b.req.nextCmd
  match b.foldCmd s with
  | none => b
  | some f =>
    let c := { c with id, stream := s, ctx := f.ctx, qindex := f.qindex, ofFold := true, timeoutMs := f.timeoutMs, pc := (b.prog s).pc }
    let b := { b with req := { b.req with cmds := b.req.cmds ++ [c], nextCmd := id + 1 } }
    ((b.setProg s fun p => { p with head := some id }).reqPump).foldSettle s

/-- Word 0 of a data instruction's own descriptor: opcode, the FOLD's keys, COUNTER; QUIET stands for ROUND = 1. -/
def foldWord0 (f : Cmd) (op ctr : Nat) (round : Bool) : Word :=
  word (put op 8 56 + put 2 4 52 + put (b2n round) 1 50 + put ctr 16 32 + put (dDkey f.desc) 16 16 + put (dSkey f.desc) 16 0)

/-- The descriptor of a data instruction. -/
def foldDesc (f : Cmd) (op ctr lctr len : Nat) (dst src : Word) (round : Bool := false) (w8 : Nat := 0) (res : Word := 0) :
    List Word :=
  [foldWord0 f op ctr round, 0, dst, src, word (put lctr 16 48 + put len 40 0), 0, 0, 0, word w8, res]

/-- An empty command that carries a descriptor and plans. -/
def foldCmdOf (d : List Word) (plans : List Plan) : Cmd := { id := 0, stream := 0, ctx := 0, qindex := 0, desc := d, plans }

/-- Whether an address operand breaks R45 (R228). -/
def Block.badAddr (b : Block) (a : Word) (mc ctr : Bool) : Bool := (b.admitAddr a mc ctr).1 != 0

/-- The program's own data, with a malformed instruction stopped as BAD_INSTRUCTION and a bad operand as BAD_OPERAND. -/
def Block.foldData (b : Block) (s : Nat) (okInstr : Bool) (mk : Cmd → Prog → Option Cmd) : Block :=
  match b.foldCmd s with
  | none => b
  | some f =>
    if !okInstr then b.foldHalt s 1 0
    else match mk f (b.prog s) with
      | none => b.foldHalt s 2 0
      | some c => b.foldIssue s c

/-- PUT (R238). -/
def Block.foldPut (b : Block) (s : Nat) (i : Slot) : Block :=
  b.foldData s (fld i 123 120 == 0 && fld i 81 0 == 0) fun f p =>
    match p.operand (fld i 119 112), p.operand (fld i 111 104) with
    | some dst, some src =>
      let len := p.len (fld i 103 98)
      if b.badAddr dst true false || !(b.isLocal src) then none
      else some (foldCmdOf (foldDesc f 0x01 (fld i 97 82) 0 len dst src)
        (storePlans dst (some (faOff src)) [] len (fld i 97 82) (dDkey f.desc)))
    | _, _ => none

/-- GET (R238). -/
def Block.foldGet (b : Block) (s : Nat) (i : Slot) : Block :=
  b.foldData s (fld i 123 120 == 0 && fld i 81 0 == 0) fun f p =>
    match p.operand (fld i 119 112), p.operand (fld i 111 104) with
    | some dst, some src =>
      let len := p.len (fld i 103 98)
      if b.badAddr src false true || !(b.isLocal dst) || (faClass src == 1 && len != 8) then none
      else some (foldCmdOf (foldDesc f 0x03 0 (fld i 97 82) len dst src) (loadPlans src (faOff dst) len (dDkey f.desc)))
    | _, _ => none

/-- PUTR (R225, R238, Table 15.8). -/
def Block.foldPutr (b : Block) (s : Nat) (i : Slot) : Block :=
  let wring := bit i 121
  let round := bit i 120
  let zero := fld i 123 122 == 0 && fld i 66 0 == 0 && (wring || (fld i 77 67 == 0 && !round)) && (!wring || b.agreed 3)
    && !(wring && fld i 77 76 == 3)
  b.foldData s zero fun f p =>
    match p.operand (fld i 119 112), p.operand (fld i 111 104), p.operand (fld i 74 67) with
    | some dst, some src, some res =>
      let len := p.len (fld i 103 98)
      let wsrc := b2n (bit i 75)
      let plans := if wring then wringPlans dst (faOff src) len (fld i 81 78) (fld i 97 82) (dDkey f.desc) wsrc (fld i 77 76)
        else reducePlans dst (faOff src) len (fld i 81 78) (fld i 97 82) (dDkey f.desc)
      if b.badAddr dst (!wring) false || !(b.isLocal src) || (wring && !(b.isLocal res)) || faOff dst % 64 != 0
        || len % 64 != 0 || (wring && (len % wringBlk wsrc != 0
          || ((wringSpans (len / wringBlk wsrc + 2) (wringBlk wsrc) (faOff dst) len).map (·.2)).sum != len)) then none
      else some (foldCmdOf (foldDesc f (if wring then 0x14 else 0x10) (fld i 97 82) 0 len dst src (wring && round)
        (put wsrc 2 42 + put (fld i 77 76) 2 40) res) plans)
    | _, _, _ => none

/-- SIGNAL (R240). -/
def Block.foldSignal (b : Block) (s : Nat) (i : Slot) : Block :=
  b.foldData s (fld i 123 120 == 0 && fld i 47 0 == 0) fun f p =>
    match p.operand (fld i 119 112) with
    | some tgt =>
      if b.badAddr tgt false true || faClass tgt != 1 then none
      else some (foldCmdOf (foldDesc f 0x12 0 0 0 tgt 0)
        [{ k := 0, opcode := 0x05, low := put (faOff tgt / 8) 16 46, dst := faChip tgt, n := 0, key := dDkey f.desc,
           data := some (toBytes 16 (fld i 111 48)) }])
    | none => none

/-- The next piece of a GATHER_IDX list read, from row `k` on (R239); a piece may begin inside an entry that crosses 2 MiB. -/
def Block.gatherRead (b : Block) (s id list k n skey : Nat) : Block :=
  if n == 0 then b else
  match b.cmd? id with
  | none => b
  | some c =>
    let a := list + 8 * k + c.listPart.length
    let len := min (8 * n - c.listPart.length) (2 ^ 21 - a % 2 ^ 21)
    let (b, ck) := b.cmdCheck id skey a len [60]
    if ck.status != 0 then
      (b.setCmd id fun x =>
        { (x.meet ck.status ck.reason b.chipId) with failCount := x.failCount + x.rowsLeft, rowsLeft := 0 }).reqPump
    else b.hread ck.unc c.ctx ck.haddr len (.foldIndex s id k)

/-- GATHER_IDX (R239). -/
def Block.foldGather (b : Block) (s : Nat) (i : Slot) : Block :=
  match b.foldCmd s with
  | none => b
  | some f =>
    let p := b.prog s
    if fld i 123 120 != 0 || fld i 73 0 != 0 then b.foldHalt s 1 0
    else match p.operand (fld i 119 112), p.operand (fld i 111 104) with
      | some list, some dst =>
        if !(b.isLocal list) || !(b.isLocal dst) then b.foldHalt s 2 0
        else
          let n := p.len (fld i 103 98)
          let id := b.req.nextCmd
          let d := foldDesc f 0x03 0 (fld i 97 82) 0 dst list false (fld i 81 74) 0
          let b := b.foldIssue s { foldCmdOf d [] with rowsLeft := n, timer := some b.time.now }
          b.gatherRead s id (faOff list) 0 n (dSkey f.desc)
      | _, _ => b.foldHalt s 2 0

/-- Entries of a GATHER_IDX list have returned: one LOAD for each row that R239 lets out, then the next piece; nothing once the
instruction has been stopped (R248). -/
def Block.gatherRows (b : Block) (s id k : Nat) (data : List Byte) (bad : Bool) : Block :=
  match b.cmd? id with
  | none => b
  | some c =>
    if c.rowsLeft == 0 then b
    else if bad then
      (b.setCmd id fun x => { (x.meet stPOISON 0 b.chipId) with failCount := x.failCount + x.rowsLeft, rowsLeft := 0 }).reqPump
    else
      let rowB := 16 * (fld (dw c.desc 8) 7 0 + 1)
      let data := c.listPart ++ data
      let n := data.length / 8
      let go := fun (b : Block) (j : Nat) =>
        let e := word (ofBytes (slice data (8 * j) 8))
        let o := faOff e
        if faClass e != 0 || b.badAddr e false false || o % 16 != 0 || decide (4096 < o % 4096 + rowB) then
          b.setCmd id fun x => { (x.meet stDENIED 0xD b.chipId) with failCount := x.failCount + 1 }
        else b.setCmd id fun x => { x with plans := x.plans ++
          [{ k := k + j, opcode := 0x01, low := put (o / 16) 37 25 + put (rowB / 16 - 1) 8 17, dst := faChip e, n := rowB,
             key := dDkey c.desc, landAt := faOff (dDst c.desc) + rowB * (k + j), want := rowB, data := some [] }] }
      let b := (List.range n).foldl go b
      let b := b.setCmd id fun x => { x with rowsLeft := x.rowsLeft - n, listPart := data.drop (8 * n) }
      (b.gatherRead s id (faOff (dSrc c.desc)) (k + n) (c.rowsLeft - n) (dSkey c.desc)).reqPump.foldSettle s

/-- WAIT (R241); `d` is what the check of the counter finds as it is read (R159). -/
def Block.foldWait (b : Block) (s : Nat) (i : Slot) (d : Darn) : Block :=
  let p := b.prog s
  let c := fld i 119 104
  if fld i 123 120 != 0 || fld i 95 0 != 0 then b.foldHalt s 1 0
  else match p.operand (fld i 103 96) with
    | none => b.foldHalt s 2 0
    | some t =>
      let b := b.ctrFind c d
      if b.ctrBad.contains c then b.foldHalt s 5 stPOISON
      else if reaches (b.ctrVal c) t then b.foldNext s
      else b.setProg s fun q => { q with st := .wait, waitCtr := c, waitTgt := t, met := 0, since := b.time.now }

/-- A WAIT whose counter reaches its target, or is poisoned (R241). -/
def Block.foldWaited (b : Block) (s : Nat) (d : Darn) : Block :=
  if (b.prog s).st != .wait then b
  else
    let b := (b.ctrFind (b.prog s).waitCtr d).wake (b.prog s).waitCtr
    if (b.prog s).met == 2 then b.foldHalt s 5 stPOISON
    else if (b.prog s).met == 1 then b.foldNext s
    else b

/-- The step test of R251 at an overrun of `late` ticks. -/
def Block.lag (b : Block) (s late : Nat) : Block :=
  let p := b.prog s
  let behind := decide (p.sIn + p.sOut < p.sLoc)
  let b := b.trace 0x08 (b.streamCtx s) s late (b2n behind)
  if behind then
    let v := b.peek (fo 0x130)
    (b.ivAdd ivBehind 1).poke (fo 0x130) (word (2 ^ 63 + put s 8 48 + put (min late 0xFFFF) 16 32 + put (min (fld v 31 0 + 1) (2 ^ 32 - 1)) 32 0))
  else b

/-- An overrun of a TICK with ABS = 1 whose target edge passed `late` ticks ago: counted, the step's lag judged, and the stream goes on
(R242, R251). -/
def Block.foldOverrun (b : Block) (s late : Nat) : Block :=
  let b := ((b.foldBump s 0 1).bump (fo 0x128)).lag s late
  (b.setProg s fun q => { q with sIn := 0, sLoc := 0, sOut := 0 }).foldNext s

/-- TICK (R242, R251). -/
def Block.foldTick (b : Block) (s : Nat) (i : Slot) : Block :=
  let p := b.prog s
  let abs := bit i 120
  if fld i 123 121 != 0 || fld i 111 0 != 0 || (!abs && fld i 119 112 != 0) then b.foldHalt s 1 0
  else if !abs then b.setProg s fun q => { q with st := .tick, tickTgt := b.time.tick + 1, tickAbs := false }
  else match p.operand (fld i 119 112) with
    | none => b.foldHalt s 2 0
    | some v =>
      let t := fld v 47 0
      if b.time.tick + 2 ^ 24 < t then b.foldHalt s 2 0
      else if t ≤ b.time.tick then b.foldOverrun s (b.time.tick - t)
      else b.setProg s fun q => { q with st := .tick, tickTgt := t, tickAbs := true, sIn := 0, sLoc := 0, sOut := 0 }

/-- Whether a TICK with ABS = 1 waits whose target has passed, or comes, during the crease: it is an overrun of the resume (R502). -/
def Block.creaseTick (b : Block) (s : Nat) : Bool :=
  let p := b.prog s
  p.st = .tick && p.tickAbs && decide (b.obs.cutTick < p.tickTgt) && decide (p.tickTgt ≤ b.time.tick)

/-- A TICK's edge has come (R242). -/
def Block.foldTicked (b : Block) (s : Nat) : Block :=
  let p := b.prog s
  if p.st = .tick && decide (p.tickTgt ≤ b.time.tick) && !(b.creased && b.creaseTick s) then b.foldNext s else b

/-- FENCE (R243), and DONE which acts as one (R245). -/
def Block.foldFence (b : Block) (s : Nat) (i : Slot) (st : FState) : Block :=
  if fld i 123 0 != 0 then b.foldHalt s 1 0
  else (b.setProg s fun q => { q with st, since := b.time.now }).foldSettle s

/-- LOOP (R244); a target in another region stops the program, taken or not (R222). A forward LOOP whose target lies in another region
stops with BAD_INSTRUCTION (DESIGN CHOICE, log entry 75). -/
def Block.foldLoop (b : Block) (s : Nat) (i : Slot) : Block :=
  let p := b.prog s
  let creg := bit i 120
  let lvl := fld i 119 118
  let tgt := fld i 117 104
  let zero := fld i 123 121 == 0 && fld i 77 0 == 0 && (creg || fld i 103 98 == 0) && (!creg || fld i 97 78 == 0)
  if !zero || lvl == 3 || decide (p.pc < tgt) then b.foldHalt s 1 0
  else if tgt / 1024 != p.entry / 1024 then b.foldHalt s 3 0
  else
    let count := if creg then fld (p.a.getD (fld i 103 98) 0) 19 0 else fld i 97 78
    let n := (if lvl == 0 then p.n0 else if lvl == 1 then p.n1 else p.n2) + 1
    let jump := decide (n < count)
    let n' := if jump then n else 0
    let b := b.setProg s fun q =>
      if lvl == 0 then { q with n0 := n' } else if lvl == 1 then { q with n1 := n' } else { q with n2 := n' }
    (b.setPc s (if jump then tgt else p.pc + 1)).foldSettle s

/-! ### PASS (R234 to R236) -/

/-- LOCAL read ahead of consumption in ascending order, in pieces of 4 KiB cut at 2 MiB, up to 64 KiB ahead (R236; the pieces, and that
one whose check fails ends the read-ahead, are DESIGN CHOICE, log entry 66), by fuel. -/
def Block.passAhead : Nat → Block → Nat → Block
  | 0, b, _ => b
  | f + 1, b, s =>
    match (b.prog s).pass, (b.prog s).head.bind b.cmd? with
    | some ps, some c =>
      let a := ps.loc + ps.asked
      let n := min (min 4096 (ps.len - ps.asked)) (2 ^ 21 - a % 2 ^ 21)
      if n == 0 || ps.consumed + 65536 < ps.asked + n then b
      else
        let (b, ck) := b.cmdCheck c.id c.skey a n [60]
        if ck.status != 0 then b.setProg s fun q => { q with pass := some { ps with asked := ps.len } }
        else
          let b := b.setProg s fun q =>
            { q with pass := some { ps with asked := ps.asked + n, ahead := ps.ahead ++ [(ps.asked, n, none, false)] } }
          Block.passAhead f (b.hread ck.unc c.ctx ck.haddr n (.passAhead c.id ps.asked)) s
    | _, _ => b

/-- PASS reaches the head (R228, R230, R235, R236): it starts to read LOCAL. -/
def Block.foldPass (b : Block) (s : Nat) (i : Slot) : Block :=
  let p := b.prog s
  let keep := bit i 122
  let final := bit i 121
  if bit i 123 || bit i 120 || fld i 47 0 != 0 || (keep && final) then b.foldHalt s 1 0
  else match p.operand (fld i 119 112), p.operand (fld i 111 104), p.operand (fld i 103 96), b.foldCmd s with
    | some inA, some loc, some out, some f =>
      let len := p.len (fld i 95 90)
      if !(b.isLocal inA) || !(b.isLocal loc) || b.badAddr out true false || faOff inA % 4096 != 0 || faOff out % 4096 != 0
        || faOff loc % 64 != 0 || len % 64 != 0 then b.foldHalt s 2 0
      else
        let id := b.req.nextCmd
        let ps : Pass := { cmd := id, inA := faOff inA, loc := faOff loc, out := out.toNat, len,
                           up := fld (p.a.getD (fld i 89 84) 0) 59 45, outp := fld i 83 80, keep, final,
                           ctr := fld i 79 64, lctr := fld i 63 48 }
        let d := foldDesc f 0x10 (fld i 79 64) (fld i 63 48) len out loc
        Block.passAhead 17 ((b.setProg s fun q => { q with pass := some ps, since := b.time.now }).foldIssue s
          { foldCmdOf d [] with passOpen := len != 0, timer := some b.time.now, isPass := true }) s
    | _, _, _, _ => b.foldHalt s 2 0

/-- A PASS is issued once the spans consumed add up to LEN, or a local check has failed, and every result has left or landed (R97, R229,
R234). -/
def Block.passIssued (b : Block) (s : Nat) : Block :=
  match (b.prog s).pass with
  | none => b
  | some ps =>
    let busy := b.fold.passPkts.any fun x => x.cmd == ps.cmd
    let lands := ((b.cmd? ps.cmd).map fun c => c.lands).getD 0
    if (decide (ps.consumed < ps.len) && !ps.stopped) || busy || (ps.final && lands != 0) then b
    else (b.setCmd ps.cmd fun c => { c with passOpen := false }).reqPump.foldSettle s

/-- Whether the pieces read ahead cover bytes `lo` to `lo + n` of a PASS's range. -/
def Pass.covers (ps : Pass) (lo n : Nat) : Bool :=
  n == (ps.ahead.map fun x => min (x.1 + x.2.1) (lo + n) - max x.1 lo).sum

/-- Those of them that hold a part of it. -/
def Pass.pieces (ps : Pass) (lo n : Nat) : List (Nat × Nat × Option (List Byte) × Bool) :=
  ps.ahead.filter fun x => decide (x.1 < lo + n) && decide (lo < x.1 + x.2.1)

/-- A PASS packet whose operands are in hand enters the dispatch order (R181). -/
def Block.passReady (b : Block) (s : Nat) (x : PassPkt) : Block :=
  let lo := ((b.prog s).pass.map fun ps => x.off - ps.inA).getD 0
  let got := if x.fromAhead then ((b.prog s).pass.map fun ps => ps.pieces lo x.span).getD [] else []
  if x.reading != 0 || (got.any fun y => y.2.2.1.isNone) || (b.mangle.queue.any fun u => u.kind = .pass x.cmd x.k)
      || b.mangle.engines.any (fun g => (g.held.map fun h => decide (h.unit.kind = .pass x.cmd x.k)).getD false) then b
  else
    let loc := if x.fromAhead then
        (got.map fun y => slice (y.2.2.1.getD []) (lo - y.1) (min (y.1 + y.2.1) (lo + x.span) - max y.1 lo)).flatten
      else ((List.range x.loc.length).map fun i => ((x.loc.find? fun y => y.1 == i).map (·.2)).getD []).flatten
    ({ b with mangle := { b.mangle with queue := b.mangle.queue ++
      [({ kind := .pass x.cmd x.k, profile := x.profile, profileAB := x.profileAB, w := x.data, m := loc, stream := s,
          bad := x.bad || got.any fun y => y.2.2.2, tick := b.time.tick } : MUnit)] } }).dispatchAll

/-- A piece of LOCAL read ahead has returned (R236): packets that wait for it may be ready. -/
def Block.passAheadDone (b : Block) (cmd at_ : Nat) (data : List Byte) (bad : Bool) : Block :=
  match b.cmd? cmd with
  | none => b
  | some c =>
    let b := b.setProg c.stream fun p => { p with pass := p.pass.map fun ps =>
      if ps.cmd == cmd then { ps with ahead := ps.ahead.map fun x => if x.1 == at_ then (x.1, x.2.1, some data, bad) else x } else ps }
    (b.fold.passPkts.filter fun x => x.cmd == cmd && x.fromAhead).foldl (fun b x => b.passReady c.stream x) b

/-- A PASS packet changed. -/
def Block.setPass (b : Block) (cmd k : Nat) (f : PassPkt → PassPkt) : Block :=
  { b with fold := { b.fold with passPkts := b.fold.passPkts.map fun x => if x.cmd == cmd && x.k == k then f x else x } }

/-- The local pieces of a PASS packet checked in order, up to the first that fails, and where they lie: host address, bytes,
uncached (R97, R235). -/
def Block.passCheck (b : Block) (c : Cmd) (pieces : List (Nat × Nat)) (perms : List Nat) : Block × Check × List (Nat × Nat × Bool) :=
  pieces.foldl (fun acc x =>
    if acc.2.1.status != 0 then acc
    else
      let (b, ck) := acc.1.cmdCheck c.id c.skey x.1 x.2 perms
      (b, ck, acc.2.2 ++ [(ck.haddr, x.2, ck.unc)])) (b, { status := 0, reason := 0 }, [])

/-- A consumed packet of a PASS fails: it counts once, as the packets that its result stands for (R180, R234, R247). -/
def Block.passFail (b : Block) (ps : Pass) (k status reason : Nat) : Block :=
  b.setCmd ps.cmd fun c =>
    let c := c.meet status reason b.chipId
    if c.failed.contains k then c else { c with failCount := c.failCount + b.passWeight ps, failed := c.failed ++ [k] }

/-- LOCAL read for a PASS packet, piece by piece where its check found it (R97, R234). -/
def Block.passReads (b : Block) (k : Nat) (c : Cmd) (pieces : List (Nat × Nat × Bool)) : Block :=
  (pieces.mapIdx fun i x => (i, x)).foldl (fun b (i, a, n, unc) => b.hread unc c.ctx a n (.passRead c.id k i)) b

/-- The result of a PASS packet landed at LOCAL, piece by piece where its check found it (R97, R235). -/
def Block.passLands (b : Block) (cmd lctr k span : Nat) (pieces : List (Nat × Nat × Bool)) (keep : Bool) (data : List Byte) : Block :=
  match b.cmd? cmd with
  | none => b
  | some c =>
    (pieces.foldl (fun (acc : Block × Nat) (x : Nat × Nat × Bool) =>
      let b := acc.1.setCmd cmd fun y => { y with lands := y.lands + 1 }
      (b.hwrite x.2.2 c.ctx x.1 (slice data acc.2 x.2.1) (.passLand cmd lctr x.2.1 span k keep), acc.2 + x.2.1)) (b, 0)).1

/-- A PASS packet taken from staging is checked at its entries, and its local data and spilled bytes are read (R97, R235, R236). Where the
check fails the PASS consumes no more; the packets before it still go out (R97). -/
def Block.passStart (b : Block) (s k : Nat) (ps : Pass) (c : Cmd) (x : Staged) : Block :=
  let prof := profileOf x.profile x.profileAB
  let a := ps.loc + (x.off - ps.inA)
  let early := prof.op != 0 && ps.covers (x.off - ps.inA) x.span
  let lands := ps.keep || ps.final
  let perms := (if prof.op == 0 || early then [] else [60]) ++ (if lands then [57] else [])
  let pieces := if perms.isEmpty then [] else cut2m (x.span / 2 ^ 21 + 2) a x.span
  let (b, ck, places) := b.passCheck c pieces perms
  if ck.status != 0 then
    (((b.setProg s fun q => { q with pass := q.pass.map fun z => { z with stopped := true } }).passFail ps k ck.status
      ck.reason).passIssued s).reqPump.foldSettle s
  else
    let reads := if prof.op == 0 || early then [] else places
    let y : PassPkt := { cmd := c.id, k, off := x.off, span := x.span, profile := x.profile, profileAB := x.profileAB,
                         data := x.data, reading := reads.length + b2n x.spilled, fromAhead := early,
                         land := if lands then places else [], sends := !ps.final }
    let b := { b with fold := { b.fold with passPkts := b.fold.passPkts ++ [y] } }
    let b := if x.spilled then
        b.hread true 0 (b.passSpillBase + 4096 * x.place) x.data.length (.passSpill c.id k) else b
    (b.passReads k c reads).passReady s y

/-- A PASS consumes the next staged packet of its range, in arrival order (R233, R234). A segment in an MX MEM_FMT always holds whole
blocks (R184). -/
def Block.passConsume (b : Block) (s : Nat) : Block :=
  match (b.prog s).pass, (b.prog s).head with
  | some ps, some id =>
    if id != ps.cmd || ps.stopped then b else
    match b.fold.staged.find? fun x => x.stream == s && x.src == ps.up && decide (ps.inA ≤ x.off)
        && decide (x.off + x.span ≤ ps.inA + ps.len) with
    | none => b
    | some x =>
      let prof := profileOf x.profile x.profileAB
      let k := ps.nextK
      let b := { b with fold := { b.fold with staged := b.fold.staged.filter fun y => y.id != x.id } }
      let b := Block.passAhead 17 (b.setProg s fun q => { q with pass := some { ps with consumed := ps.consumed + x.span, nextK := k + 1 } }) s
      if isMX prof.out && !(isMX prof.mem) && x.span % (4 * fmtWidth prof.mem) != 0 then
        (b.passFail ps k stDENIED 0xD).passIssued s
      else
        match b.cmd? ps.cmd with
        | none => b
        | some c => b.passStart s k (((b.prog s).pass).getD ps) c x
  | _, _ => b

/-- An operand of a PASS packet has returned: its local data, or its own data from the spill area. -/
def Block.passOperand (b : Block) (cmd k : Nat) (part : Option Nat) (data : List Byte) (bad : Bool) : Block :=
  let b := b.setPass cmd k fun x =>
    let x := { x with reading := x.reading - 1, bad := x.bad || bad }
    match part with
    | none => { x with data }
    | some i => { x with loc := x.loc ++ [(i, data)] }
  match b.cmd? cmd, b.fold.passPkts.find? fun x => x.cmd == cmd && x.k == k with
  | some c, some x => b.passReady c.stream x
  | _, _ => b

/-- A result forwarded to OUT + (o − IN) as a REDUCE (R234). UNITS_M1 of a result of more than 64 units wraps (DESIGN CHOICE, log
entry 74). -/
def Block.passForward (b : Block) (ps : Pass) (off span k : Nat) (data : List Byte) : Block :=
  let out := word ps.out
  let o := faOff out + (off - ps.inA)
  match b.cmd? ps.cmd with
  | none => b
  | some c => b.setCmd c.id fun x => { x with plans := x.plans ++
      [{ k, opcode := if decide (0xE ≤ faClass out) then 0x0C else 0x04, dst := dstField out, n := span, key := dDkey c.desc,
         low := put (o / 64) 35 27 + put (data.length / 64 - 1) 6 21 + put ps.outp 4 17 + put ps.ctr 16 0,
         data := some data }] }

/-- A PASS unit is done (R180, R234, R235). -/
def Block.passDone (b : Block) (cmd k : Nat) (h : Held) (bad : Bool) : Block :=
  match b.cmd? cmd, b.fold.passPkts.find? fun x => x.cmd == cmd && x.k == k with
  | some c, some x =>
    let s := c.stream
    let b := { b with fold := { b.fold with passPkts := b.fold.passPkts.filter fun y => !(y.cmd == cmd && y.k == k) } }
    match (b.prog s).pass with
    | none => b
    | some ps =>
      if ps.cmd != cmd then b
      else if bad then (b.passFail ps k stPOISON 0).passIssued s
      else if ps.final || ps.keep then
        let b := if ps.keep then b.passForward ps x.off x.span k h.sent else b
        ((b.passLands cmd ps.lctr k x.span x.land ps.keep h.landed).passIssued s).reqPump
      else ((b.passForward ps x.off x.span k h.sent).passIssued s).reqPump
  | _, _ => b

/-- A span of a PASS KEEP whose landing failed does not count, however its forwarded packet ends (R247). -/
def Block.uncount (b : Block) (cmd k n : Nat) : Block :=
  let waits := ((b.cmd? cmd).map fun c => c.plans.any fun q => q.k == k).getD false
  let out := b.req.posted.any fun p => p.cmd == cmd && p.k == k
  if waits then b.setPlan cmd k fun q => { q with n := q.n - n }
  else if out && !(b.req.posted.any fun p => p.cmd == cmd && p.k == k && p.n == 0) then
    { b with req := { b.req with posted := b.req.posted.map fun p =>
        if p.cmd == cmd && p.k == k then { p with n := p.n - n } else p } }
  else b.setCmd cmd fun c => if c.failed.contains k then c else { c with bytesOk := c.bytesOk - n }

/-- Whether a piece of the landing of a PASS packet's result has not been answered. -/
def Block.passLandOpen (b : Block) (cmd k : Nat) : Bool :=
  b.host.jobs.any fun j => match j.kind with | .passLand c _ _ _ i _ => c == cmd && i == k | _ => false

/-- A piece of a PASS landing has been accepted, or has failed (R235, R247): LCOUNTER advances; with FINAL the span counts as OK once all of
its pieces have been accepted. A packet fails once, whatever fails of it. -/
def Block.passLanded (b : Block) (cmd lctr n span k : Nat) (keep bad : Bool) : Block :=
  match b.cmd? cmd with
  | none => b
  | some c =>
    let b := if bad then b else b.ctrAdvance lctr n
    let b := if bad && keep && !(c.failed.contains k) then b.uncount cmd k span else b
    let whole := !bad && !keep && !(c.failed.contains k) && !(b.passLandOpen cmd k)
    let b := b.setCmd cmd fun c =>
      let c := { c with lands := c.lands - 1 }
      if bad then (c.meet stPOISON 0 b.chipId).fail k else if whole then { c with bytesOk := c.bytesOk + span } else c
    if ((b.prog c.stream).pass.map fun q => q.cmd) == some cmd then b.passIssued c.stream else b

/-! ### Start, completion, timeout (R215, R230, R241, R247) -/

/-- Whether two windows share an offset. -/
def overlap (x y : Nat × Nat) : Bool := decide (x.1 < y.2) && decide (y.1 < x.2)

/-- The operand table has returned (R215, step 1): it waits for the start, or an error in it ends the FOLD with POISON. -/
def Block.foldArgs (b : Block) (s : Nat) (data : List Byte) (bad : Bool) : Block :=
  match b.foldCmd s with
  | none => b
  | some c =>
    if bad then
      (b.setCmd c.id fun x => { (x.meet stPOISON 0 b.chipId) with ended := true }).setProg s fun q => { q with st := .queue, cmd := 0 }
    else
      b.setProg s fun p => { p with args := some ((List.range 64).map fun i => word (ofBytes (slice data (8 * i) 8))) }

/-- The program starts (R215, steps 2 to 6, R231): registers loaded, window armed, ENTRY reached. -/
def Block.foldStart (b : Block) (s : Nat) : Block :=
  let p := b.prog s
  match b.foldCmd s, p.args with
  | some c, some tbl =>
    if p.st != .starting || !b.up || b.rst.draining || b.rst.engines.contains 12 then b else
    let a := tbl.mapIdx fun i w => if decide (1 ≤ i) && decide (i ≤ 5) then dw c.desc (10 + i) else w
    let lo := fld (a.getD 62 0) 40 0
    let hi := fld (a.getD 63 0) 40 0
    let win := if decide (lo < hi) then some (lo, hi) else none
    let clash := (List.range 256).any fun t => t != s && (match win, (b.prog t).win with
      | some x, some y => overlap x y
      | _, _ => false)
    let b := b.setProg s fun p => { p with a, args := none, n0 := 0, n1 := 0, n2 := 0, win := if clash then none else win }
    if clash then b.foldHalt s 4 0 else (b.setPc s (b.prog s).entry).foldSettle s
  | _, _ => b

/-- A data instruction completes (R230, R247): its totals join the FOLD's; a status other than OK stops the program at it. -/
def Block.foldCompleted (b : Block) (id : Nat) : Block :=
  match b.cmd? id with
  | none => b
  | some c =>
    if !c.ofFold || !(b.covered c) then b else
    let s := c.stream
    let p := b.prog s
    let b := b.dropCmd c
    let b := b.setCmd p.cmd fun f =>
      { (f.meet c.status c.reason (f.first c.status c.failChip)) with
        bytesOk := f.bytesOk + c.bytesOk, failCount := f.failCount + c.failCount, anyIssued := f.anyIssued || c.anyIssued,
        issuedN := f.issuedN + c.issuedN }
    let b := if c.status != 0 then b.foldStop s 5 c.status c.pc else b
    let b := if p.head == some id && c.status == 0 then b.foldAdvance s else b
    b.foldSettle s

/-- A WAIT, FENCE, DONE or PASS has passed the FOLD's timeout at the last tick edge (R230, R241, R243). -/
def Block.foldTimeout (b : Block) (s : Nat) : Block :=
  let p := b.prog s
  match b.foldCmd s with
  | none => b
  | some f =>
    let held := (p.st = .wait && p.met == 0) || p.st = .fence || p.st = .done || (p.st = .issuing && p.head.isSome && p.head == p.pass.map (·.cmd))
    if held && !b.creased && decide (msUnits f.timeoutMs < b.time.edge - p.since) then
      let b := match p.head with
        | some id => (match b.cmd? id with | some c => b.timeout c | none => b)
        | none => b
      b.foldHalt s 5 stTIMEOUT
    else b

end Sys2Proof.Machine
end

