-- ==== Sys2Proof/Machine/Coding.lean ====
section
/-!
DEFINITION. The codes of the lanes (chapters 9 and 10): PAM4 levels, scramblers and test patterns, the RS(544,514) code, codewords,
E1 words, markers, training frames and the blocks of the pilot lane. A run of bits is a number whose bit 0 is the first bit sent,
and a length.
-/

namespace Sys2Proof.Machine

/-! ### Levels (R378) -/

/-- The level of a pair of bits, the first the more significant of the Gray code (R378). -/
def level (first second : Nat) : Nat := 2 * (first % 2) + (first + second) % 2

/-- The pair of bits that a level stands for, the first in bit 0 (R378). -/
def levelBits (l : Nat) : Nat := l / 2 % 2 + 2 * ((l / 2 + l) % 2)

/-- The levels of `n` pairs of bits. -/
def toLevels : Nat → Nat → List Nat
  | 0, _ => []
  | n + 1, v => level v (v / 2) :: toLevels n (v / 4)

/-- The bits of a run of levels. -/
def ofLevels : List Nat → Nat
  | [] => 0
  | l :: ls => levelBits l + 4 * ofLevels ls

/-- A level as a lane of the other polarity brings it (R395). -/
def flipLevel (l : Nat) : Nat := 3 - l % 4

/-! ### Shift registers (R379, R383, R394, R405) -/

/-- `n` bits of the sequence in which each bit is the sum of those `ts` places before it: the bits, and the register after them. The
register holds the last `w` bits, the newest in bit 0, and a seed stands for the bits before the first. -/
def lfsr (w : Nat) (ts : List Nat) : Nat → Nat → Nat × Nat
  | 0, s => (0, s)
  | n + 1, s =>
    let x := (ts.map fun t => s / 2 ^ (t - 1) % 2).sum % 2
    let r := lfsr w ts n ((2 * s + x) % 2 ^ w)
    (x + 2 * r.1, r.2)

/-- The data-lane scrambler, x³¹ + x²⁸ + 1 (R379). -/
def scramble (n s : Nat) : Nat × Nat := lfsr 31 [31, 28] n s

/-- The seed of lane L`k` (R379). -/
def scrSeed (k : Nat) : Nat := 0x7FFFFF00 + k

/-- A test pattern: 0 PRBS13, x¹³ + x¹² + x² + x + 1; 1 PRBS31, x³¹ + x²⁸ + 1 (R394, R405). -/
def prbs (pat n s : Nat) : Nat × Nat := if pat == 0 then lfsr 13 [13, 12, 2, 1] n s else lfsr 31 [31, 28] n s

/-- `n` symbols of a lane's test pattern from a register on, and the register after them. -/
def prbsLevels (pat n s : Nat) : List Nat × Nat := let r := prbs pat (2 * n) s; (toLevels n r.1, r.2)

/-- Where two runs of symbols differ: how many do. -/
def differ (xs ys : List Nat) : Nat := ((xs.zip ys).filter fun p => p.1 != p.2).length

/-! ### The RS(544,514) code of IEEE 802.3 (R10, R340, R341) -/

/-- A product in GF(2¹⁰), modulo x¹⁰ + x³ + 1: by the bits of the first factor. -/
def gfMulBits : Nat → Nat → Nat → Nat
  | 0, _, _ => 0
  | n + 1, a, b =>
    let c := if 512 ≤ b then (2 * b) ^^^ 0x409 else 2 * b
    (if a % 2 == 1 then b else 0) ^^^ gfMulBits n (a / 2) c

/-- A product in GF(2¹⁰). -/
def gfMul (a b : Nat) : Nat := if a == 0 || b == 0 then 0 else gfMulBits 10 a b

/-- αⁿ, α = 2. -/
def gfExp : Nat → Nat
  | 0 => 1
  | n + 1 => let a := gfExp n; if 512 ≤ a then (2 * a) ^^^ 0x409 else 2 * a

/-- A power in GF(2¹⁰), by the bits of the exponent. -/
def gfPow : Nat → Nat → Nat → Nat
  | 0, _, _ => 1
  | n + 1, a, e => gfMul (if e % 2 == 1 then a else 1) (gfPow n (gfMul a a) (e / 2))

/-- The inverse, a¹⁰²². -/
def gfInv (a : Nat) : Nat := gfPow 10 a 1022

/-- Two polynomials added; coefficients stand lowest power first. -/
def polyAdd : List Nat → List Nat → List Nat
  | [], ys => ys
  | xs, [] => xs
  | x :: xs, y :: ys => (x ^^^ y) :: polyAdd xs ys

/-- A polynomial times a constant. -/
def polyScale (c : Nat) (xs : List Nat) : List Nat := xs.map (gfMul c)

/-- A product of polynomials. -/
def polyMul : List Nat → List Nat → List Nat
  | [], _ => []
  | x :: xs, ys => polyAdd (polyScale x ys) (0 :: polyMul xs ys)

/-- The value of a polynomial. -/
def polyEval (xs : List Nat) (a : Nat) : Nat := xs.foldr (fun x v => x ^^^ gfMul a v) 0

/-- The generator, the product of x − αʲ for j from 0 to 29. -/
def rsGen : List Nat := (List.range 30).foldl (fun g j => polyMul g [gfExp j, 1]) [1]

/-- The parity register after one more message symbol; the register stands highest power first. -/
def rsStep (gen reg : List Nat) (m : Nat) : List Nat :=
  let f := m ^^^ reg.headD 0
  polyAdd (reg.drop 1 ++ [0]) (polyScale f gen)

/-- The codeword of 514 message symbols: the message, symbol 0 first and of the highest power, and its 30 parity symbols. -/
def rsEncode (msg : List Nat) : List Nat :=
  let gen := (rsGen.take 30).reverse
  msg ++ msg.foldl (rsStep gen) (List.replicate 30 0)

/-- The 30 syndromes of a received word. -/
def rsSyndromes (r : List Nat) : List Nat := let p := r.reverse; (List.range 30).map fun j => polyEval p (gfExp j)

/-- The Berlekamp–Massey search: the error locator of the syndromes, and its length. State: locator, the one before its last growth,
length, places since, the discrepancy then. By fuel, one step a syndrome. -/
def rsLocate (ss : List Nat) : Nat → Nat → List Nat → List Nat → Nat → Nat → Nat → List Nat × Nat
  | 0, _, c, _, l, _, _ => (c, l)
  | f + 1, n, c, b, l, m, d0 =>
    let d := (List.range (l + 1)).foldl (fun a i => a ^^^ gfMul (c.getD i 0) (if i ≤ n then ss.getD (n - i) 0 else 0)) 0
    if d == 0 then rsLocate ss f (n + 1) c b l (m + 1) d0
    else
      let t := polyAdd c (polyScale (gfMul d (gfInv d0)) (List.replicate m 0 ++ b))
      if 2 * l ≤ n then rsLocate ss f (n + 1) t c (n + 1 - l) 1 d
      else rsLocate ss f (n + 1) t b l (m + 1) d0

/-- A polynomial's formal derivative: the odd coefficients. -/
def polyDeriv (xs : List Nat) : List Nat := (xs.drop 1).mapIdx fun i x => if i % 2 == 0 then x else 0

/-- What decoding a received codeword gives: the codeword, and whether symbols were corrected; none where more than 15 symbols are in
error, as far as the code shows it (R341). -/
def rsDecode (r : List Nat) : Option (List Nat × Bool) :=
  let ss := rsSyndromes r
  if ss.all (· == 0) then some (r, false)
  else
    let (loc, l) := rsLocate ss 30 0 [1] [1] 0 1 1
    let omega := (polyMul ss loc).take 30
    let deriv := polyDeriv loc
    let at_ := (List.range 544).filter fun i => polyEval loc (gfPow 10 (gfExp i) 1022) == 0
    if 15 < l || at_.length != l then none
    else
      let fix := at_.foldl (fun (w : List Nat) i =>
        let x := gfExp i
        let y := gfInv x
        w.modify (543 - i) fun v => v ^^^ gfMul x (gfMul (polyEval omega y) (gfInv (polyEval deriv y)))) r
      if (rsSyndromes fix).all (· == 0) then some (fix, true) else none

/-! ### Codewords on the lanes (R340, R380) -/

/-- `n` symbols of 10 bits, each filled from its least significant bit (R340). -/
def toSymbols : Nat → Nat → List Nat
  | 0, _ => []
  | n + 1, v => v % 1024 :: toSymbols n (v / 1024)

/-- The bits of a run of symbols. -/
def ofSymbols : List Nat → Nat
  | [] => 0
  | x :: xs => x % 1024 + 1024 * ofSymbols xs

/-- Lane L`k`'s 34 symbols of a codeword: symbol `i` is sent on lane `i` mod 16 (R340). -/
def laneSymbols (cw : List Nat) (k : Nat) : List Nat := (List.range 34).map fun j => cw.getD (16 * j + k) 0

/-- A codeword from the 34 symbols of each lane. -/
def gatherSymbols (lanes : List (List Nat)) : List Nat := (List.range 544).map fun i => (lanes.getD (i % 16) []).getD (i / 16) 0

/-- The message of a marker codeword (Table 10.3). -/
def markerMsg (ptr group : Nat) : List Nat :=
  let v := put ptr 13 0 + put group 32 20 + put 2 2 52
  ((List.range 16).map fun k => 0x2A0 + k) ++ ((List.range 16).map fun k => 0x15F - k) ++ toSymbols 482 v

/-- FLIT_PTR, GROUP and MODE of a marker codeword's message (Table 10.3). -/
def markerFields (msg : List Nat) : Nat × Nat × Nat :=
  let v := ofSymbols ((msg.drop 32).take 6)
  (bits v 12 0, bits v 51 20, bits v 53 52)

/-- Whether lane L`k`'s first two symbols are those of its marker (Table 10.3). -/
def isMarkerE2 (k : Nat) (syms : List Nat) : Bool := syms.getD 0 0 == 0x2A0 + k && syms.getD 1 0 == 0x15F - k

/-! ### E1 words (R342, R381) -/

/-- A 65-bit word: 64 data bits and the bit that makes the number of ones even (R342). -/
def withParity (v : Nat) : Nat := v % 2 ^ 64 + popCount 64 v % 2 * 2 ^ 64

/-- Whether a 65-bit word's parity holds. -/
def parityOk (v : Nat) : Bool := popCount 65 v % 2 == 0

/-- The data bits of lane L`k`'s marker word (Table 10.4). -/
def markerWord (k ptr group : Nat) : Nat := put 0xB4E1 16 48 + put k 4 44 + put ptr 13 31 + put group 31 0

/-- Whether a 65-bit word is lane L`k`'s marker word (Table 10.4). -/
def isMarkerE1 (k v : Nat) : Bool := parityOk v && bits v 63 48 == 0xB4E1 && bits v 47 44 == k

/-! ### Training frames (R394, R395) -/

/-- A lane's identity: 0xC3A5, the lane, STEP (R394). -/
def identity (k step : Nat) : Nat := put 0xC3A5 16 48 + put k 4 44 + put step 4 40

/-- A training frame of lane L`k`: 32 symbols of identity, 4,064 of the lane's PRBS13 (R394). The seed of the sequence is not stated:
it is free (log entry 70). -/
def trainFrame (k step : Nat) : List Nat := toLevels 32 (identity k step) ++ (prbsLevels 0 4064 (Config.prbsSeed 0 k)).1

/-- The lane that 32 received symbols name, and whether they came inverted; none where they are no identity (R395). -/
def readIdentity (ls : List Nat) : Option (Nat × Bool) :=
  let v := ofLevels (ls.take 32)
  let w := ofLevels ((ls.take 32).map flipLevel)
  if bits v 63 48 == 0xC3A5 && bits v 39 0 == 0 then some (bits v 47 44, false)
  else if bits w 63 48 == 0xC3A5 && bits w 39 0 == 0 then some (bits w 47 44, true) else none

/-- Symbols of the PRBS part of received training frames that differ from the lane's sequence; a frame stands with how often it
came (R394). -/
def frameErrors (k : Nat) (frames : List (Nat × List Nat)) : Nat :=
  let want := (prbsLevels 0 4064 (Config.prbsSeed 0 k)).1
  (frames.map fun f => f.1 * differ f.2 want).sum

/-! ### Blocks of the pilot lane (R383, R385) -/

/-- `n` bits scrambled by x⁵⁸ + x³⁹ + 1, self-synchronising: the bits, and the last 58 of them, the newest in bit 0. -/
def selfScramble : Nat → Nat → Nat → Nat × Nat
  | 0, _, s => (0, s)
  | n + 1, v, s =>
    let x := (v + s / 2 ^ 57 + s / 2 ^ 38) % 2
    let r := selfScramble n (v / 2) ((2 * s + x) % 2 ^ 58)
    (x + 2 * r.1, r.2)

/-- The inverse of `selfScramble`. -/
def selfDescramble : Nat → Nat → Nat → Nat × Nat
  | 0, _, s => (0, s)
  | n + 1, v, s =>
    let x := (v + s / 2 ^ 57 + s / 2 ^ 38) % 2
    let r := selfDescramble n (v / 2) ((2 * s + v % 2) % 2 ^ 58)
    (x + 2 * r.1, r.2)

/-- The 66-bit blocks of payloads, the sync header in bits [1:0]: 0b10 for the control block that comes first, 0b01 for the data
blocks (R383); and the scrambler after them. -/
def pilotBlocks : Bool → List Word → Nat → List Nat × Nat
  | _, [], s => ([], s)
  | ctl, v :: vs, s =>
    let r := selfScramble 64 v.toNat s
    let t := pilotBlocks false vs r.2
    (((if ctl then 2 else 1) + 4 * r.1) :: t.1, t.2)

/-- The payloads of received blocks, each with whether its header marks a control block; and the descrambler after them. -/
def pilotPayloads : List Nat → Nat → List (Bool × Word) × Nat
  | [], s => ([], s)
  | x :: xs, s =>
    let r := selfDescramble 64 (x / 4) s
    let t := pilotPayloads xs r.2
    ((x % 4 == 2, word r.1) :: t.1, t.2)

/-- A 66-bit block of the other polarity (R386). -/
def flipBlock (x : Nat) : Nat := 2 ^ 66 - 1 - x % 2 ^ 66

end Sys2Proof.Machine
end

