-- ==== Sys2Proof/Machine/Framing.lean ====
section
/-!
DEFINITION. Framing on the lanes (§9.3, §10.2, §10.3): the flit stream cut into codewords or words and put onto sixteen lanes as levels, the
way back, markers, lane order and polarity, and the blocks of the pilot lane.
-/

namespace Sys2Proof.Machine

/-! ### A port and its lanes -/

/-- One port's link layer. -/
def Block.port (b : Block) (p : Nat) : PortSt := b.ports.getD p {}

/-- A port changed. -/
def Block.setPort (b : Block) (p : Nat) (f : PortSt → PortSt) : Block := { b with ports := b.ports.modify p f }

/-- One port's lanes. -/
def Block.lane (b : Block) (p : Nat) : LaneSt := b.lanes.getD p {}

/-- A port's lanes changed. -/
def Block.setLane (b : Block) (p : Nat) (f : LaneSt → LaneSt) : Block := { b with lanes := b.lanes.modify p f }

/-- A field of P*n*_LANE.STATUS set (Table 10.13). -/
def Block.setLs (b : Block) (p hi lo x : Nat) : Block := b.setRf (ln p 0x040) hi lo x

/-- Training step in progress (Table 10.6), 0 outside TRAINING. -/
def Block.lstep (b : Block) (p : Nat) : Nat := b.rf (ln p 0x040) 63 60

/-- Whether the pilot lane is in symbol lock. -/
def Block.pilotLock (b : Block) (p : Nat) : Bool := bit (b.peek (ln p 0x040)) 56

/-- MODE of a port's test (Table 10.10), 0 where none runs. -/
def Block.testMode (b : Block) (p : Nat) : Nat := b.rf (ln p 0x098) 63 61

/-- Whether a port's test carries mission framing (R406). -/
def Block.mission (b : Block) (p : Nat) : Bool := b.testMode p == 2 && bit (b.peek (ln p 0x098)) 56

/-! ### Sending (R340, R342, R378 to R381) -/

/-- `n` bits put onto a lane, scrambled or, for a marker, not; and the levels that leave. A bit left over waits for its pair. -/
def LaneTx.put (t : LaneTx) (n v : Nat) (scr : Bool) : LaneTx × List Nat :=
  let r := if scr then scramble n t.scr else (0, t.scr)
  let v := v ^^^ r.1
  match t.odd with
  | none => ({ scr := r.2, odd := if n % 2 == 1 then some (v / 2 ^ (n - 1) % 2) else none }, toLevels (n / 2) v)
  | some x => ({ scr := r.2, odd := if n % 2 == 0 then some (v / 2 ^ (n - 1) % 2) else none }, toLevels ((n + 1) / 2) (x + 2 * v))

/-- `n` bits put onto each lane. -/
def Framer.put (f : Framer) (n : Nat) (scr : Bool) (vals : List Nat) : Framer :=
  let r := (f.lanes.zip vals).map fun (t, v) => t.put n v scr
  { f with lanes := r.map (·.1), out := (f.out.zip (r.map (·.2))).map fun (a, c) => a ++ c }

/-- Framing that begins in a mode: each lane's scrambler at its seed. -/
def Framer.fresh (mode : Nat) : Framer :=
  { mode, lanes := (List.range 16).map (fun k => { scr := scrSeed k }), out := List.replicate 16 [] }

/-- Bits of each lane in a codeword or a row. -/
def laneBits (mode : Nat) : Nat := if mode == 1 then 65 else 340

/-- A marker on all lanes: FLIT_PTR is what is left of the flit in progress; the scramblers restart after it (R340, R342, R379 to R381). -/
def Framer.marker (f : Framer) : Framer :=
  let vals := if f.mode == 1 then (List.range 16).map fun k => withParity (markerWord k f.len f.marks)
    else
      let cw := rsEncode (markerMsg f.len (f.marks - f.base))
      (List.range 16).map fun k => ofSymbols (laneSymbols cw k)
  let g := f.put (laneBits f.mode) false vals
  { g with count := 0, marks := f.marks + 1, lanes := g.lanes.mapIdx fun k t => { t with scr := scrSeed k } }

/-- The next codeword, or the next row of sixteen words, where the stream holds one; a marker follows every 66 codewords, and every
4,095 rows (R340, R342). -/
def Framer.cut (f : Framer) : Framer :=
  let unit := if f.mode == 1 then 1024 else 5140
  if f.len < unit then f
  else
    let v := f.buf % 2 ^ unit
    let vals := if f.mode == 1 then (List.range 16).map fun k => withParity (v / 2 ^ (64 * k))
      else
        let cw := rsEncode (toSymbols 514 v)
        (List.range 16).map fun k => ofSymbols (laneSymbols cw k)
    let g := { f.put (laneBits f.mode) true vals with buf := f.buf / 2 ^ unit, len := f.len - unit, count := f.count + 1 }
    if g.count == (if f.mode == 1 then 4095 else 66) then g.marker else g

/-- A flit's 4,224 bits join the stream, and what is whole leaves: at most five rows or one codeword. -/
def Framer.push (f : Framer) (v : Nat) : Framer :=
  let f := { f with buf := f.buf + v % 2 ^ 4224 * 2 ^ f.len, len := f.len + 4224, out := List.replicate 16 [] }
  f.cut.cut.cut.cut.cut

/-- The bits of a flit, bit 0 of byte 0 first (R329, R340). -/
def flitBits (hdr : Word) (body : List Slot) (echo crc : Nat) : Nat :=
  ofBytes (toBytes 8 hdr.toNat ++ slotsBytes body ++ toBytes 4 echo ++ toBytes 4 crc)

/-- A flit put onto a port's lanes. -/
def Block.flitOut (b : Block) (p : Nat) (hdr : Word) (body : List Slot) (echo crc : Nat) : Block :=
  b.setLane p fun l => { l with tx := l.tx.push (flitBits hdr body echo crc) }

/-! ### Receiving (R341 to R343, R395, R396) -/

/-- Levels received on a lane, less the bits that slips leave out. -/
def LaneRx.take (x : LaneRx) (ls : List Nat) : LaneRx :=
  let len := x.len + 2 * ls.length
  let d := min x.drop len
  { x with bits := (x.bits + ofLevels ls * 2 ^ x.len) / 2 ^ d, len := len - d, drop := x.drop - d }

/-- The first `n` bits of a lane, descrambled or, for a marker, not. -/
def LaneRx.pull (x : LaneRx) (n : Nat) (scr : Bool) : LaneRx × Nat :=
  let r := if scr then scramble n x.scr else (0, x.scr)
  ({ x with scr := r.2, bits := x.bits / 2 ^ n, len := x.len - n }, x.bits % 2 ^ n ^^^ r.1)

/-- Framing awaited in a mode, from just after a marker. -/
def Deframer.fresh (mode : Nat) : Deframer := { mode, lanes := (List.range 16).map fun k => { scr := scrSeed k } }

/-- What received codewords and rows held: codewords corrected, uncorrectable codewords, and parity errors of each lane. -/
structure Found where
  fixed : Nat := 0
  lost : Nat := 0
  parity : List Nat := List.replicate 16 0
  deriving DecidableEq, Repr

/-- Parity errors of a row of words. -/
def rowErrors (vals : List Nat) : List Nat := vals.map fun v => if parityOk v then 0 else 1

/-- Whether any lane has a parity error. -/
def Found.odd (g : Found) : Bool := g.parity.any (· != 0)

/-- `n` bits pulled from every lane. -/
def Deframer.pull (d : Deframer) (n : Nat) (scr : Bool) : Deframer × List Nat :=
  let r := d.lanes.map fun x => x.pull n scr
  ({ d with lanes := r.map (·.1) }, r.map (·.2))

/-- The codeword that the lanes hold, decoded, and its message; the symbols as they came where it is uncorrectable (R341). -/
def decodeLanes (vals : List Nat) : List Nat × Option Bool :=
  let r := gatherSymbols (vals.map (toSymbols 34))
  match rsDecode r with
  | some (cw, fixed) => (cw.take 514, some fixed)
  | none => (r.take 514, none)

/-- A codeword or a row taken from the lanes into the stream. -/
def Deframer.unit (d : Deframer) (g : Found) : Deframer × Found :=
  let (d, vals) := d.pull (laneBits d.mode) true
  if d.mode == 1 then
    let errs := rowErrors vals
    let v := (vals.mapIdx fun k w => w % 2 ^ 64 * 2 ^ (64 * k)).sum
    ({ d with chunks := d.chunks ++ [{ len := 1024, val := v }], clean := if errs.all (· == 0) then d.clean + 1 else 0 },
     { g with parity := (g.parity.zip errs).map fun (a, e) => a + e })
  else
    let (msg, ok) := decodeLanes vals
    ({ d with chunks := d.chunks ++ [{ len := 5140, val := ofSymbols msg, bad := ok.isNone }],
              clean := if ok.isNone then 0 else d.clean + 1 },
     { g with fixed := g.fixed + b2n (ok == some true), lost := g.lost + b2n ok.isNone })

/-- Whether every lane holds the bits of `k` codewords or rows. -/
def Deframer.holds (d : Deframer) (k : Nat) : Bool := !d.lanes.isEmpty && d.lanes.all fun x => decide (k * laneBits d.mode ≤ x.len)

/-- Every whole codeword or row taken, but for the last `keep`, by fuel. -/
def Deframer.units (keep : Nat) : Nat → Deframer → Found → Deframer × Found
  | 0, d, g => (d, g)
  | n + 1, d, g => if d.holds (keep + 1) then let r := d.unit g; Deframer.units keep n r.1 r.2 else (d, g)

/-- Levels received on the lanes. -/
def Deframer.feed (d : Deframer) (air : Air) : Deframer := { d with lanes := (d.lanes.zip air).map fun (x, ls) => x.take ls }

/-- Levels of each lane, and those that followed them. -/
def joinAir (before after : Air) : Air := (List.range 16).map fun k => before.getD k [] ++ after.getD k []

/-- Levels received, and what is whole of them taken into the stream, but for the last `keep` codewords or rows. -/
def Deframer.arrive (d : Deframer) (air : Air) (keep : Nat) : Deframer × Found :=
  let d := d.feed air
  Deframer.units keep (d.lanes.headD { scr := 0 }).len d {}

/-- The first `n` bits of a stream, whether any lay in an uncorrectable codeword, and the rest. -/
def takeBits : Nat → List Chunk → Nat × Bool × List Chunk
  | _, [] => (0, false, [])
  | n, c :: cs =>
    if n == 0 then (0, false, c :: cs)
    else if c.len ≤ n then
      let r := takeBits (n - c.len) cs
      (c.val + 2 ^ c.len * r.1, c.bad || r.2.1, r.2.2)
    else (c.val % 2 ^ n, c.bad, { c with len := c.len - n, val := c.val / 2 ^ n } :: cs)

/-- Bits that a stream holds. -/
def streamLen (cs : List Chunk) : Nat := (cs.map (·.len)).sum

/-- A flit of 4,224 bits (R329). -/
def readFlit (v : Nat) (bad : Bool) : Flit :=
  { hdr := word v, body := (List.range 32).map fun k => BitVec.ofNat 128 (v / 2 ^ (64 + 128 * k)),
    echo := BitVec.ofNat 32 (v / 2 ^ 4160), crc := BitVec.ofNat 32 (v / 2 ^ 4192), bad }

/-- The next flit of the stream, where it is whole. -/
def Deframer.flit (d : Deframer) : Option (Flit × Deframer) :=
  if streamLen d.chunks < d.skip + 4224 then none
  else
    let rest := (takeBits d.skip d.chunks).2.2
    let r := takeBits 4224 rest
    some (readFlit r.1 r.2.1, { d with chunks := r.2.2, skip := 0 })

/-- The flit boundary tracked: bits from the end of what has come to the first flit that begins there (R341). -/
def Deframer.tracked (d : Deframer) : Nat :=
  let n := streamLen d.chunks
  if n ≤ d.skip then d.skip - n else (4224 - (n - d.skip) % 4224) % 4224

/-- A lane's levels in the polarity that ORDER found (R395). -/
def LaneInfo.upright (x : LaneInfo) (ls : List Nat) : List Nat := if x.inverted then ls.map flipLevel else ls

/-- A port's lanes in the peer's order and polarity, as ORDER found them (R395). -/
def Block.logical (b : Block) (p : Nat) (air : Air) : Air :=
  let air := (air.zip (b.lane p).lanes).map fun (ls, x) => x.upright ls
  if bit (b.peek (ln p 0x040)) 57 then air.reverse else air

/-- Whether a port's receiver takes mission framing from the line (R364, R382). -/
def Block.framed (b : Block) (p : Nat) : Bool :=
  let st := (b.port p).st
  st == 4 || st == 5 || st == 2 || (st == 1 && b.lstep p == 7)

/-- What a marker on the lanes says: FLIT_PTR and GROUP, with the marker's own findings; none where it is no marker. -/
def readMarker (mode : Nat) (vals : List Nat) : Option (Nat × Nat) × Found :=
  if mode == 1 then
    let found := { ({} : Found) with parity := rowErrors vals }
    let same := (vals.mapIdx fun k v => isMarkerE1 k v && bits v 43 0 == bits (vals.headD 0) 43 0).all id
    (if same then some (bits (vals.headD 0) 43 31, bits (vals.headD 0) 30 0) else none, found)
  else
    match decodeLanes vals with
    | (msg, some fixed) =>
      let (ptr, group, mode) := markerFields msg
      let marks := (List.range 16).all fun k => msg.getD k 0 == 0x2A0 + k && msg.getD (16 + k) 0 == 0x15F - k
      (if marks && mode == 2 then some (ptr, group) else none, { fixed := b2n fixed })
    | (_, none) => (none, { lost := 1 })

/-- Findings of two runs together. -/
def Found.add (g h : Found) : Found :=
  { fixed := g.fixed + h.fixed, lost := g.lost + h.lost, parity := (g.parity.zip h.parity).map fun (a, e) => a + e }

/-- A marker taken from the lanes, the last of what has come on them: its bits are not scrambled, and the scramblers restart after it
(R379). What it says, and what all that came held. -/
def Deframer.marker (d : Deframer) (air : Air) : Option (Deframer × Option (Nat × Nat) × Found) :=
  let (d, g) := d.arrive air 1
  if !(d.holds 1) then none
  else
    let (d, vals) := d.pull (laneBits d.mode) false
    let (m, found) := readMarker d.mode vals
    let size := if d.mode == 1 then 2 ^ 31 else 2 ^ 32
    let d := { d with lanes := d.lanes.mapIdx fun k (x : LaneRx) => { x with scr := scrSeed k } }
    let d := match m with
      | none => { d with group := none, groups := 0 }
      | some (_, group) =>
        { d with group := some group, groups := if d.group.any (fun g => (g + 1) % size == group) then d.groups + 1 else 1 }
    let clean := if found.lost != 0 || found.odd then 0 else if d.mode == 1 then d.clean else d.clean + 1
    some ({ d with clean }, m, g.add found)

/-- What a framer puts out comes back to a deframer one codeword or row at a time, by fuel (R406): the parallel loop carries every bit as it
is. -/
def loopUnits : Nat → Framer → Deframer → Found → Framer × Deframer × Found
  | 0, f, d, g => (f, d, g)
  | n + 1, f, d, g =>
    let f' := ({ f with out := List.replicate 16 [] } : Framer).cut
    let r := if f'.marks == f.marks then d.arrive f'.out 0 else match d.marker f'.out with
      | some (d', _, g') => (d', g')
      | none => d.arrive f'.out 0
    loopUnits n f' r.1 (g.add r.2)

/-- A mission test in the parallel loop for one flit (R405, R406): the framing of the flit comes back, uncorrectable codewords count on every
lane and parity errors on their own (log entry 70), and the line stays idle. -/
def LaneSt.loopFlit (l : LaneSt) (v : Nat) : LaneSt :=
  let f := { l.tx with buf := l.tx.buf + v % 2 ^ 4224 * 2 ^ l.tx.len, len := l.tx.len + 4224 }
  let (f, d, g) := loopUnits 5 f l.rx {}
  { l with tx := { f with out := [] }, rx := { d with chunks := [] },
           prbs := l.prbs.mapIdx fun k n => satAdd n (if k < 16 then g.lost + g.parity.getD k 0 else 0) }

/-- Symbols sent in a loop inside the block come back on the same lane (R405): what a slip leaves out is gone, the rest is checked against the
pattern. Answers the lane's receiver, its checker and the symbols that differ. -/
def loopLane (pat : Nat) (x : LaneRx) (chk : Nat) (ls : List Nat) : LaneRx × Nat × Nat :=
  let x := x.take ls
  let n := x.len / 2
  let want := prbsLevels pat n chk
  ({ x with bits := x.bits / 4 ^ n, len := x.len - 2 * n }, want.2, differ (toLevels n x.bits) want.1)

/-- A pattern test in a loop inside the block for `n` symbols of each lane (R405, Table 10.10): each lane generates and checks them, and the
line stays idle. -/
def LaneSt.loopPattern (l : LaneSt) (pat n : Nat) : LaneSt :=
  let sent := l.gen.map (prbsLevels pat n)
  let back := (List.range 16).map fun k => loopLane pat (l.rx.lanes.getD k { scr := 0 }) (l.chk.getD k 0) ((sent.getD k ([], 0)).1)
  { l with gen := sent.map (·.2), chk := back.map (·.2.1), tx := { l.tx with out := [] }, rx := { l.rx with lanes := back.map (·.1) },
           prbs := l.prbs.mapIdx fun k v => satAdd v (((back.map (·.2.2)).getD k 0)) }

/-- Whether a lane's marker stands at its bit boundary, as slips have moved it (R396). -/
def markerHere (mode k off : Nat) (ls : List Nat) : Bool :=
  let v := ofLevels ls
  if mode == 1 then isMarkerE1 k (v / 2 ^ (off % 65) % 2 ^ 65) else isMarkerE2 k (toSymbols 2 (v / 2 ^ (off % 10)))

/-! ### The pilot lane (R383, R385, R386) -/

/-- A pilot message with its CRC. -/
def mkPilot (mtype imm : Nat) (data : List Word) : PilotMsg :=
  let hi := put mtype 8 24 + put data.length 4 20 + put imm 20 0
  { ctl := word (hi * 2 ^ 32 + crc32 (toBytes 4 hi ++ wordsBytes data)), data }

/-- Messages leave on a pilot lane as blocks. -/
def LaneSt.sendPilot (l : LaneSt) (ms : List PilotMsg) : LaneSt :=
  let r := ms.foldl (fun (acc : List Nat × Nat) m => let t := pilotBlocks true (m.ctl :: m.data) acc.2; (acc.1 ++ t.1, t.2)) ([], l.pilotTx)
  { l with wire := ms, blocks := r.1, pilotTx := r.2 }

/-- The messages that leave on a port's pilot lane. -/
def Block.pilotOut (b : Block) (p : Nat) (ms : List PilotMsg) : Block :=
  if (b.lane p).powered then b.setLane p fun l => l.sendPilot ms else b

/-- Whether a message is whole and its CRC passes (R385). -/
def pmGood (m : PilotMsg) : Bool :=
  m.data.length == fld m.ctl 55 52 && fld m.ctl 31 0 == crc32 (toBytes 4 (fld m.ctl 63 32) ++ wordsBytes m.data)

/-- Whether a block's sync header is valid: 0b01 or 0b10 (R383, R384). -/
def headerOk (x : PilotBlock) : Bool := x.toNat % 4 == 1 || x.toNat % 4 == 2

/-- The message that blocks spell in a polarity, where a control block comes first and data blocks follow; the descrambler holds the bits
as they came, so that an inverted lane gives the complement of each payload (R383, R386). -/
def pilotSpell (flip : Bool) (m : List PilotBlock) (rx : Nat) : Option PilotMsg :=
  let rx := if flip then 2 ^ 58 - 1 - rx else rx
  match (pilotPayloads (m.map fun x => if flip then flipBlock x.toNat else x.toNat) rx).1 with
  | (true, ctl) :: data => if (data.all fun x => !x.1) && m.all headerOk then some { ctl, data := data.map (·.2) } else none
  | _ => none

/-- Whether blocks spell a message whose CRC passes. -/
def pilotPasses (flip : Bool) (m : List PilotBlock) (rx : Nat) : Bool := (pilotSpell flip m rx).any pmGood

/-- The descrambler after blocks: the last 58 payload bits as they came. -/
def pilotAfter (m : List PilotBlock) (rx : Nat) : Nat := (pilotPayloads (m.map (·.toNat)) rx).2

/-- Whether some message among blocks passes its CRC in a polarity: from a block that is a control block there, as many data blocks as it
announces. -/
def pilotFinds (flip : Bool) : List PilotBlock → Nat → Bool
  | [], _ => false
  | x :: xs, rx =>
    (match pilotSpell flip [x] rx with
     | none => false
     | some m => pilotPasses flip (x :: xs.take (fld m.ctl 55 52)) rx)
    || pilotFinds flip xs (pilotAfter [x] rx)

/-- The headers of the last 64 blocks, with one more (R384): whether each was valid, the oldest first. -/
def LaneSt.seeHeader (l : LaneSt) (ok : Bool) : LaneSt :=
  let h := l.headers ++ [ok]
  { l with headers := h.drop (h.length - 64) }

/-- Whether 16 of the last 64 headers were invalid (R384). -/
def LaneSt.headersBad (l : LaneSt) : Bool := decide (16 ≤ (l.headers.filter fun ok => !ok).length)

end Sys2Proof.Machine
end

