-- ==== Sys2Proof/Machine/Forward.lean ====
section
/-!
DEFINITION. The forwarding core (chapter 8): routes, trees, Hampers, epochs, commitment to outputs, header capture.
-/

namespace Sys2Proof.Machine

/-! ### Links and hops -/

/-- Whether a port is up for routing (R316, R364). -/
def Block.portUp (b : Block) (p : Nat) : Bool := (b.port p).st == 5

/-- Class of the tracked classes (R309): TC1, TC3, TC4 and TC5. -/
def tracked (cls : Nat) : Bool := cls == 1 || cls == 3 || cls == 4 || cls == 5

/-- Whether a hop on a port crosses its axis's wrap link (R291). -/
def Block.crosses (b : Block) (port : Nat) : Bool :=
  let x := coord b.chipId (port / 2)
  if port % 2 == 0 then x + 1 == b.axisLen (port / 2) else x == 0

/-- Sub-channel of the next hop of a packet that arrived on `input` and `sub`; none where it would cross the same
wrap link twice (R297, R298). -/
def Block.hop (b : Block) (input sub port : Nat) : Option Nat :=
  let s := if decide (input < 6) && input / 2 == port / 2 then sub else 0
  if b.crosses port then (if s == 1 then none else some 1) else some s

/-- The default output port for a destination: 6 is local delivery (R292). -/
def Block.defaultPort (b : Block) (dst : Nat) : Nat :=
  match (List.range 3).find? fun x => coord dst x != coord b.chipId x with
  | none => 6
  | some x =>
    let n := b.axisLen x
    let d := (coord dst x + n - coord b.chipId x) % n
    if d ≤ n - d then 2 * x else 2 * x + 1

/-- Output of a unicast packet under a route set: a port, 6 local delivery, 7 unreachable (R292, R302 to R305). -/
def Block.routeOf (b : Block) (set dst : Nat) : Nat :=
  if !(b.chipInSeal dst) then 7
  else if dst == b.chipId then 6
  else
    let e := Tbl.get 0 b.fwd.routes (32768 * set + dst)
    let mode := bits e 7 6
    if mode == 1 then bits e 2 0 else if mode == 2 then 7 else b.defaultPort dst

/-! ### Multicast trees (R313, R314) -/

/-- LO and HI of the range that an _MC packet covers on an axis; none where its group is not valid. -/
def Block.mcRange (b : Block) (hdr : Slot) (axis : Nat) : Option (Nat × Nat) :=
  if bitN (hDst hdr) 14 then some (0, b.axisLen axis - 1)
  else
    let e := b.groupEntry (hDst hdr % 4096)
    if bit e 63 then some (geLo e axis, geHi e axis) else none

/-- Whether a coordinate lies in the packet's range on an axis. -/
def Block.mcIn (b : Block) (hdr : Slot) (axis x : Nat) : Bool :=
  match b.mcRange hdr axis with
  | none => false
  | some (lo, hi) => inRange lo hi x

/-- Coordinates of the range on an axis. -/
def Block.mcSize (b : Block) (hdr : Slot) (axis : Nat) : Nat :=
  ((List.range (b.axisLen axis)).filter (b.mcIn hdr axis)).length

/-- Coordinates of the range beyond distance `d` from the source in one direction of an axis (R314, rule 1). -/
def Block.mcBeyond (b : Block) (hdr : Slot) (axis : Nat) (pos : Bool) (d : Nat) : Nat :=
  let n := b.axisLen axis
  let x := coord (hSrc hdr) axis
  let half := if pos then n / 2 else (n + 1) / 2 - 1
  ((List.range (half + 1)).filter fun k =>
    decide (d < k) && b.mcIn hdr axis (if pos then (x + k) % n else (x + n - k % n) % n)).length

/-- Members in the range on every axis after `axis`. -/
def Block.mcBelow (b : Block) (hdr : Slot) (axis : Nat) : Nat :=
  ((List.range 3).filter fun x => decide (axis < x)).foldl (fun a x => a * b.mcSize hdr x) 1

/-- Branches that start on an axis at this chip, and on the later axes while its coordinate is in range: ports with
their members, and whether this chip is a member (R314, rules 2 to 4). By fuel. -/
def Block.mcStart (b : Block) (hdr : Slot) : Nat → Nat → List (Nat × Nat) × Bool
  | 0, _ => ([], true)
  | f + 1, axis =>
    let one := fun (pos : Bool) =>
      let k := b.mcBeyond hdr axis pos 0
      if k == 0 then [] else [(2 * axis + b2n (!pos), k * b.mcBelow hdr axis)]
    let rest := if b.mcIn hdr axis (coord b.chipId axis) then Block.mcStart b hdr f (axis + 1) else ([], false)
    (one true ++ one false ++ rest.1, rest.2)

/-- Branches of an _MC packet at this chip, by the input it came on. -/
def Block.mcRoute (b : Block) (hdr : Slot) (input : Nat) : List (Nat × Nat) × Bool :=
  if decide (6 ≤ input) then b.mcStart hdr 3 0
  else
    let axis := input / 2
    let pos := input % 2 == 1
    let n := b.axisLen axis
    let x := coord b.chipId axis
    let s := coord (hSrc hdr) axis
    let d := if pos then (x + n - s) % n else (s + n - x) % n
    let k := b.mcBeyond hdr axis pos d
    let on := if k == 0 then [] else [(2 * axis + b2n (!pos), k * b.mcBelow hdr axis)]
    let rest := if b.mcIn hdr axis x then b.mcStart hdr (2 - axis) (axis + 1) else ([], false)
    (on ++ rest.1, rest.2)

/-! ### Packets in the core -/

/-- A packet in the core. -/
def Block.fpkt? (b : Block) (id : Nat) : Option FPkt := b.fwd.pkts.find? fun p => p.id == id

/-- A packet in the core changed. -/
def Block.setFpkt (b : Block) (id : Nat) (f : FPkt → FPkt) : Block :=
  { b with fwd := { b.fwd with pkts := b.fwd.pkts.map fun p => if p.id == id then f p else p } }

/-- A copy changed. -/
def Block.setBranch (b : Block) (id out : Nat) (f : Branch → Branch) : Block :=
  b.setFpkt id fun p => { p with branches := p.branches.map fun x => if x.out == out then f x else x }

/-- Whether every slot of a packet has arrived. -/
def FPkt.whole (p : FPkt) : Bool := p.data.length == hSlots p.hdr

/-- Bytes that a packet takes in a Hamper. -/
def FPkt.bytes (p : FPkt) : Nat := 16 * (1 + hSlots p.hdr)

/-- Header slot of a copy as it leaves (R296). -/
def outHdr (h : Slot) (x : Branch) : Slot := setBit (setBit h 121 (x.subch == 1)) 120 (x.epoch == 1)

/-- Whether a copy sits in a Hamper. -/
def Branch.inHamper (x : Branch) : Bool := x.st = .hamper || x.st = .closed || x.st = .reading

/-- Credits returned for slots that have left a receive buffer (R361, R369): `hdr` header and `data` data slots. -/
def Block.creditBack (b : Block) (p : FPkt) (hdr data : Nat) : Block :=
  if decide (6 ≤ p.input) || p.session != (b.port p.input).session then b
  else
    let i := 4 * opClass (hOp p.hdr) + 2 * p.sub
    b.setPort p.input fun q => { q with
      rxBack := (q.rxBack.modify i fun x => (x + hdr) % 2 ^ 24).modify (i + 1) fun x => (x + data) % 2 ^ 24 }

/-- Slots of a packet that have left its input return their credits; a packet that is whole goes to local delivery;
one with nothing left to do leaves the core (R293, R361). -/
def Block.fwdSettle (b : Block) (id : Nat) : Block :=
  match b.fpkt? id with
  | none => b
  | some p =>
    if !p.routed then b else
    let avail := 1 + p.data.length
    let prog := p.branches.foldl (fun a x => if x.inHamper then a else min a x.sent) avail
    let b := b.creditBack p (b2n (p.left == 0 && prog != 0)) ((prog - 1) - (p.left - 1))
    let b := b.setFpkt id fun q => { q with left := max q.left prog }
    let b := if p.local_ && p.whole && !p.killed then
        { (b.setFpkt id fun q => { q with local_ := false }).noteIn { hdr := p.hdr, data := p.data } with
          dest := { b.dest with inbox := b.dest.inbox ++ [{ hdr := p.hdr, data := p.data }] } }
      else b
    if p.branches.isEmpty && (p.whole || p.killed) then
      { b with fwd := { b.fwd with pkts := b.fwd.pkts.filter fun q => q.id != id } }
    else b

/-- A TORN_NOTE for a dropped request (R121); nothing for a response, receipt, note or management packet. -/
def Block.torn (b : Block) (h : Slot) (flushed : Bool) (members : Nat) : Block :=
  let op := hOp h
  if !(tracked (opClass op)) then b else
  let low := put (hCtx h) 12 78 + put (b2n flushed) 1 77 + put op 6 71 + put (hDst h) 15 56
    + put (if isMC op then members else 0) 16 40
    + put (if nonPosted op || (decide (7 ≤ op) && decide (op ≤ 9)) then hTag h else 0) 16 0
  b.inject { hdr := mkResp 0x25 (b.injectEpoch 2) (hSrc h) b.chipId low }

/-- A copy taken away. -/
def Block.dropBranch (b : Block) (id out : Nat) : Block :=
  (b.setFpkt id fun p => { p with branches := p.branches.filter fun x => x.out != out }).fwdSettle id

/-- A copy dropped and answered (R121). -/
def Block.tearBranch (b : Block) (id out : Nat) (flushed : Bool) : Block :=
  match b.fpkt? id with
  | none => b
  | some p =>
    match p.branches.find? fun x => x.out == out with
    | none => b
    | some x => (b.dropBranch id out).torn p.hdr flushed x.members

/-! ### The Hamper (R316 to R321) -/

/-- Copies in the Hampers, with their packets. -/
def Block.hampered (b : Block) : List (FPkt × Branch) :=
  b.fwd.pkts.flatMap fun p => (p.branches.filter Branch.inHamper).map fun x => (p, x)

/-- Bytes held on the block, and in spill. -/
def Block.hamperBytes (b : Block) (spill : Bool) : Nat :=
  ((b.hampered.filter fun (_, x) => x.spilled == spill).map fun (p, _) => p.bytes).sum

/-- Bytes of the Hamper spill area in use (R319). -/
def Block.hamperSpill (b : Block) : Nat :=
  if b.up && bit (b.peek (rt 0x078)) 63 then 2 ^ b.rf (rt 0x078) 4 0 else 0

/-- Bytes of the whole store (R319). -/
def Block.hamperStore (b : Block) : Nat := 2 ^ 20 + b.hamperSpill

/-- Address of byte `place` of the Hamper spill area. -/
def Block.hamperAddr (b : Block) (place : Nat) : Nat := b.rf (rt 0x078) 51 20 * 2 ^ 20 + place

/-- Where `n` bytes fit in the Hamper spill area: the lowest run of bytes that no spilled copy takes (the area's layout is a
DESIGN CHOICE, log entry 20). -/
def Block.hamperFit (b : Block) (n : Nat) : Option Nat :=
  let live := (b.hampered.filter fun (_, x) => x.spilled).map fun (p, x) => (x.place, p.bytes)
  let ok := fun (c : Nat) => decide (c + n ≤ b.hamperSpill) && live.all fun x => decide (c + n ≤ x.1) || decide (x.1 + x.2 ≤ c)
  ((0 :: live.map fun x => x.1 + x.2).filter ok).foldl (fun (m : Option Nat) x => some (match m with | none => x | some y => min x y)) none

/-- Bytes of a packet as they are spilled. -/
def FPkt.spillBytes (p : FPkt) : List Byte := slotsBytes (p.hdr :: p.data)

/-- The spill write of a copy whose packet is whole (R319). -/
def Block.hamperWrite (b : Block) (id out : Nat) : Block :=
  match b.fpkt? id with
  | none => b
  | some p =>
    match p.branches.find? fun x => x.out == out with
    | none => b
    | some x =>
      if x.spilled && x.inHamper && !x.written && p.whole then
        (b.setBranch id out fun y => { y with written := true }).hwrite true 0 (b.hamperAddr x.place) p.spillBytes .lasting
      else b

/-- Pairs of source chip and source context with held packets, and the bytes of each. -/
def Block.hamperPairs (b : Block) : List ((Nat × Nat) × Nat) :=
  let l := (b.hampered.filter fun (_, x) => x.st = .hamper).map fun (p, _) => ((hSrc p.hdr, hCtx p.hdr), p.bytes)
  ((l.map (·.1)).eraseDups).map fun k => (k, ((l.filter fun x => x.1 == k).map (·.2)).sum)

/-- Held copies of a list discarded, oldest first, each answered as FLUSHED (R320, R321). -/
def Block.flushAll (b : Block) (xs : List (FPkt × Branch)) : Block :=
  let ys := xs.mergeSort fun x y => decide (x.2.order ≤ y.2.order)
  ys.foldl (fun b (p, x) => (b.tearBranch p.id x.out true).bump (rt 0x0D0)) b

/-- HAMPER_FLUSH events of a flush, one for each port concerned (Table 13.4). -/
def Block.flushEvents (b : Block) (xs : List (FPkt × Branch)) (pair : Nat) : Block :=
  (List.range 6).foldl (fun b p =>
    let n := (xs.filter fun x => x.2.out == p).length
    if n == 0 then b else b.trace 0x0B 0 p n pair) b

/-- Pairs flushed, the largest first, until the bytes held fall below RESUME_AT (R320). By fuel. -/
def Block.flushDown : Nat → Block → Block
  | 0, b => b
  | f + 1, b =>
    if (b.hamperBytes false + b.hamperBytes true) * 256 < b.rf (rt 0x080) 7 0 * b.hamperStore then b
    else match b.hamperPairs.foldl (fun (m : Option ((Nat × Nat) × Nat)) x =>
        match m with
        | none => some x
        | some y => if y.2 < x.2 then some x else m) none with
      | none => b
      | some (k, _) =>
        let xs := b.hampered.filter fun (p, x) => x.st = .hamper && hSrc p.hdr == k.1 && hCtx p.hdr == k.2
        Block.flushDown f ((b.flushAll xs).flushEvents xs (put k.1 15 12 + put k.2 12 0))

/-- The threshold test of R320. -/
def Block.hamperCheck (b : Block) : Block :=
  if b.rf (rt 0x080) 15 8 * b.hamperStore ≤ (b.hamperBytes false + b.hamperBytes true) * 256 then
    b.flushDown (b.hampered.length + 1)
  else b

/-- Whether the store has room for a packet, and whether on the block (R319). -/
def Block.hamperRoom (b : Block) (p : FPkt) : Bool × Bool :=
  let onBlock := decide (b.hamperBytes false + p.bytes ≤ 2 ^ 20)
  (onBlock || (b.hamperFit p.bytes).isSome, onBlock)

/-- Whether an earlier packet of its class and input still waits at the input for the same output (R295, R320). -/
def Block.waitsBehind (b : Block) (p : FPkt) (out : Nat) : Bool :=
  (b.fwd.pkts.takeWhile fun q => q.id != p.id).any fun q =>
    q.input == p.input && opClass (hOp q.hdr) == opClass (hOp p.hdr) && q.branches.any fun x => x.out == out && x.st = .waiting && x.order == 0

/-- A copy enters its port's Hamper when the store has room for it, after a flush if one is due; else it goes on waiting
at its input, and later ones of its class behind it (R295, R316, R319, R320). One that was in the Hamper before keeps its place in the
order (R148, R317). -/
def Block.hamperIn (b : Block) (id out : Nat) : Block :=
  match b.fpkt? id with
  | none => b
  | some p =>
    let b := if (b.hamperRoom p).1 then b else b.hamperCheck
    let (room, onBlock) := b.hamperRoom p
    if !room || b.waitsBehind p out then b
    else
      let place := if onBlock then 0 else (b.hamperFit p.bytes).getD 0
      let b := b.setBranch id out fun x =>
        { x with st := .hamper, order := if x.order == 0 then b.fwd.nextOrder else x.order, spilled := !onBlock, place, written := false }
      let b := { b with fwd := { b.fwd with nextOrder := b.fwd.nextOrder + 1 } }
      (((b.bump (rt 0x0C8)).hamperWrite id out).fwdSettle id).hamperCheck

/-- Copies of the tracked classes that wait for a port that is down enter its Hamper, those that were in one first and at the place they
had in its order; one that was being read back is still there (R148, R316, R317, Table 9.10). -/
def Block.hamperPort (b : Block) (out : Nat) : Block :=
  let xs := b.fwd.pkts.flatMap fun p =>
    (p.branches.filter fun x => tracked (opClass (hOp p.hdr)) && x.out == out && (x.st = .waiting || x.st = .reading)).map
      fun x => (p.id, x.order, decide (x.st = .reading))
  let old := (xs.filter fun x => x.2.1 != 0).mergeSort fun x y => decide (x.2.1 ≤ y.2.1)
  (old ++ xs.filter fun x => x.2.1 == 0).foldl (fun b x =>
    if x.2.2 then b.setBranch x.1 out fun y => { y with st := .hamper } else b.hamperIn x.1 out) b

/-- Copies that wait at their inputs for room in the store are tried again (R320). -/
def Block.hamperRetry (b : Block) : Block :=
  ((List.range 6).filter fun p => !(b.portUp p)).foldl Block.hamperPort b

/-- A held copy leaves its Hamper for its port, under the current epoch; a spilled one once it has been read back (R317 to R319). -/
def Block.hamperOut (b : Block) (p : FPkt) (x : Branch) : Block :=
  if x.spilled && x.written then
    (b.setBranch p.id x.out fun y => { y with st := .reading, epoch := b.fwd.current }).hread true 0 (b.hamperAddr x.place) p.bytes
      (.hamperRead p.id x.out)
  else b.setBranch p.id x.out fun y => { y with st := .waiting, epoch := b.fwd.current, spilled := false }

/-- The port has come up: what its Hamper holds leaves, in order (R317). -/
def Block.hamperRelease (b : Block) (out : Nat) : Block :=
  let xs := (b.hampered.filter fun (_, x) => x.out == out && x.st = .hamper).mergeSort fun x y => decide (x.2.order ≤ y.2.order)
  xs.foldl (fun b (p, x) => b.hamperOut p x) b

/-- A spilled copy has been read back; with an uncorrectable error it is dropped and answered (DESIGN CHOICE, log entry 20). -/
def Block.hamperBack (b : Block) (id out : Nat) (data : List Byte) (bad : Bool) : Block :=
  match b.fpkt? id with
  | none => b
  | some p =>
    match p.branches.find? fun x => x.st = .reading && (x.out == out || !(isMC (hOp p.hdr))) with
    | none => b
    | some x =>
      if bad then b.tearBranch id x.out false
      else (b.setFpkt id fun q => { q with data := (bytesSlots data).drop 1 }).setBranch id x.out fun y =>
        { y with st := .waiting, spilled := false, written := false }

/-! ### Header capture (R322 to R325) -/

/-- Words of a capture record (Table 8.5). -/
def captureWords (phase : Nat) (hdr : Slot) (time input out sub epoch matches_ : Nat) : List Word :=
  [word hdr.toNat, word (hdr.toNat / 2 ^ 64), word time,
   word (put phase 1 63 + put input 3 60 + put out 4 56 + put sub 1 55 + put epoch 1 54 + put matches_ 48 0)]

/-- A capture record written or sent, with no check of its room. -/
def Block.capturePut (b : Block) (hdr : Slot) (input out sub epoch matches_ : Nat) : Block :=
  let b := ({ b with fwd := { b.fwd with capCount := b.fwd.capCount + 1 } }).ivAdd ivCaptured 1
  if bit (b.peek (tr 0x820)) 63 then b.toCollector 0x38 (captureWords 0 hdr b.time.now input out sub epoch matches_)
  else b.ringPut (tr 0x800) (tr 0x808) 32 fun ph => captureWords ph hdr b.time.now input out sub epoch matches_

/-- Whether a capture record has room: a free slot, and within 1 % of the channels' write bandwidth (R324): half the
number of records that R492 calls 2 %. -/
def Block.captureRoom (b : Block) : Bool :=
  decide (b.fwd.capCount < 48 * b.tickCycles / 100000) && (bit (b.peek (tr 0x820)) 63 || b.ringFree (tr 0x800) (tr 0x808))

/-- A packet offered to the capture filter (R322, R324); SIZE 0 disables capture, remote capture too (Table 8.10). -/
def Block.capture (b : Block) (hdr : Slot) (input out sub epoch : Nat) : Block :=
  let m := b.peek (tr 0x810)
  let on := b.rf (tr 0x800) 3 0 != 0
  if !on || (hOp hdr &&& fld m 57 52) != fld m 63 58 || (hDst hdr &&& fld m 14 0) != fld m 29 15
    || !(bit (b.peek (tr 0x808)) (49 + input)) then b else
  let n := max 1 (b.rf (tr 0x808) 48 32)
  let f := b.fwd
  let b := { b with fwd := { f with capNth := if n ≤ f.capNth + 1 then 0 else f.capNth + 1, capMatches := f.capMatches + 1 } }
  if f.capNth + 1 < n then b else
  let drop := fun (b : Block) => { b.bump (tr 0x818) with fwd := { b.fwd with capLost := b.fwd.capLost + 1 } }
  if !b.captureRoom then drop b else
  let b := if b.fwd.capLost == 0 then b else
    let b := b.capturePut 0 input 0xF 0 0 b.fwd.capLost
    { b with fwd := { b.fwd with capLost := 0 } }
  if !b.captureRoom then drop b else
  let k := b.fwd.capMatches
  ({ b with fwd := { b.fwd with capMatches := 0 } }).capturePut hdr input out sub epoch k

/-! ### Routing a packet (FORWARD_PACKET) -/

/-- A packet at an input dropped before it has any copy: a request is answered (R304, R307). -/
def Block.dropPkt (b : Block) (p : FPkt) (counter : Option Nat) (members : Nat) : Block :=
  let b := (b.setFpkt p.id fun q => { q with routed := true }).fwdSettle p.id
  let b := match counter with
    | none => b
    | some w => b.bump w
  b.torn p.hdr false members

/-- One copy routed to an output: to the port, to its Hamper, or discarded or dropped (R297, R298, R316). Answers OUT of
the capture record. -/
def Block.addBranch (b : Block) (id out epoch members : Nat) : Block × Nat × Nat :=
  match b.fpkt? id with
  | none => (b, 8, 0)
  | some p =>
    let cls := opClass (hOp p.hdr)
    match b.hop p.input p.sub out with
    | none => ((b.bump (rt 0x0E8)).torn p.hdr false members, if tracked cls then 9 else 8, 0)
    | some sub =>
      if !(b.portUp out) && !(tracked cls) then (b.bump (rt 0x0D8), 8, sub)
      else
        let b := b.setFpkt id fun q => { q with branches := q.branches ++ [{ out, subch := sub, epoch, members }] }
        if b.portUp out then (b, out, sub) else (b.hamperIn id out, 7, sub)

/-- The packet's header slot is read and the packet routed by its epoch (R292, R293, R304, R307, R314, R316). -/
def Block.routePkt (b : Block) (p : FPkt) : Block :=
  let h := p.hdr
  let cls := opClass (hOp h)
  let epoch := b2n (bit h 120)
  let cap := fun (b : Block) (out sub : Nat) => b.capture h p.input out sub epoch
  let dropOut := if tracked cls then 9 else 8
  if epoch != b.fwd.current && b.fwd.other == 0 then
    let m := if treeOp (hOp h) then b.mcRoute h p.input else ([], false)
    cap (b.dropPkt p (some (rt 0x0E0)) ((m.1.map (·.2)).sum + b2n m.2)) dropOut p.sub
  else if treeOp (hOp h) then
    let (outs, mine) := b.mcRoute h p.input
    let b := b.setFpkt p.id fun q => { q with routed := true, local_ := mine }
    let (b, o, s) := outs.foldl (fun (acc : Block × Nat × Nat) x =>
      let (b, o, s) := acc.1.addBranch p.id x.1 epoch x.2
      (b, if acc.2.1 == 8 then o else acc.2.1, if acc.2.1 == 8 then s else acc.2.2)) (b, if mine then 6 else 8, 0)
    (cap b o s).fwdSettle p.id
  else
    let out := b.routeOf epoch (hDst h)
    if out == 7 then cap (b.dropPkt p (if tracked cls then none else some (rt 0x0D8)) 0) dropOut p.sub
    else if out == 6 then (cap (b.setFpkt p.id fun q => { q with routed := true, local_ := true }) 6 p.sub).fwdSettle p.id
    else
      let b := b.setFpkt p.id fun q => { q with routed := true }
      let (b, o, s) := b.addBranch p.id out epoch 0
      (cap b o s).fwdSettle p.id

/-- A packet enters the core at an input. -/
def Block.enterCore (b : Block) (hdr : Slot) (input sub : Nat) (data : List Slot) : Block × FPkt :=
  let p : FPkt := { id := b.fwd.nextId, hdr, input, sub, session := (b.port input).session, data, tick := b.time.tick }
  ({ b with fwd := { b.fwd with pkts := b.fwd.pkts ++ [p], nextId := p.id + 1 } }, p)

/-- The next header slot of an input and lane (lane = 2·class + sub-channel) is read and its packet routed, the headers of a class in the
order of their arrival; from local injection the oldest packet of the class (R295). -/
def Block.forward (b : Block) (input lane : Nat) : Block :=
  if decide (6 ≤ input) then
    match b.fwd.inject.find? fun p => opClass (hOp p.hdr) == lane / 2 with
    | none => b
    | some q =>
      let b := { b.noteOut q with fwd := { b.fwd with inject := b.fwd.inject.erase q } }
      let (b, p) := b.enterCore q.hdr 6 0 q.data
      b.routePkt p
  else match b.fwd.pkts.find? fun p => p.input == input && !p.routed && opClass (hOp p.hdr) == lane / 2 with
    | none => b
    | some p => if p.sub == lane % 2 then b.routePkt p else b

/-! ### Commitment to an output (R32, R294, R295) -/

/-- Whether a send-side credit counter of a port leaves room for one more slot (R363). -/
def PortSt.credit (q : PortSt) (i : Nat) : Bool :=
  decide (subMod 24 (q.txUsed.getD i 0) (q.txBack.getD i 0) < q.txLimit.getD i 0)

/-- The committed copy of a port's lane, with its packet. -/
def Block.committed (b : Block) (port lane : Nat) : Option (FPkt × Branch) :=
  b.fwd.pkts.findSome? fun p =>
    if opClass (hOp p.hdr) != lane / 2 then none
    else (p.branches.find? fun x => x.out == port && x.st = .committed && x.subch == lane % 2).map fun x => (p, x)

/-- Copies of a class that wait for a port: their packets in arrival order. -/
def Block.waitingFor (b : Block) (port cls : Nat) : List (FPkt × Branch) :=
  b.fwd.pkts.flatMap fun p =>
    if opClass (hOp p.hdr) != cls then []
    else (p.branches.filter fun x => x.out == port && x.st = .waiting).map fun x => (p, x)

/-- Whether a port's lane can take another packet: nothing committed to it, with a header credit and a data credit (R294). -/
def Block.laneFree (b : Block) (port lane : Nat) : Bool :=
  let q := b.port port
  let i := 4 * (lane / 2) + 2 * (lane % 2)
  (b.committed port lane).isNone && q.credit i && q.credit (i + 1)

/-- The copies of a port's lane that came out of its Hamper, the oldest first, those still being read back among them (R317). -/
def Block.hamperFirst (b : Block) (port lane : Nat) : List (FPkt × Branch) :=
  let l := b.fwd.pkts.flatMap fun p =>
    if opClass (hOp p.hdr) != lane / 2 then []
    else (p.branches.filter fun x => x.out == port && x.subch == lane % 2 && x.order != 0 && (x.st = .waiting || x.st = .reading)).map
      fun x => (p, x)
  l.mergeSort fun x y => decide (x.2.order ≤ y.2.order)

/-- The copy that a port takes next of a class: the oldest out of the Hamper on a lane that is free (R317), else the oldest of the next
input in round-robin order whose oldest goes on a free lane, behind no copy out of the Hamper (R32, R295, R338). -/
def Block.nextOf (b : Block) (port cls : Nat) : Option (FPkt × Branch) :=
  let held := [2 * cls, 2 * cls + 1].findSome? fun l =>
    if b.laneFree port l then ((b.hamperFirst port l).head?).filter fun x => x.2.st = .waiting else none
  match held with
  | some x => some x
  | none =>
    let ws := (b.waitingFor port cls).filter fun x => x.2.order == 0
    let last := Tbl.get 6 b.fwd.rr (8 * port + cls)
    ((List.range 7).map fun k => (last + 1 + k) % 7).findSome? fun i =>
      match ws.find? fun (p, _) => p.input == i with
      | none => none
      | some (p, x) =>
        if b.laneFree port (2 * cls + x.subch) && (b.hamperFirst port (2 * cls + x.subch)).isEmpty then some (p, x) else none

/-- A waiting packet is committed to its output once it has a header credit and a data credit (R294, R366), the packets of a class in
the order of R32. -/
def Block.commit (b : Block) (port lane : Nat) : Block :=
  if (b.port port).st != 5 || bit (b.peek (lk port 0x010)) 1 then b
  else match b.nextOf port (lane / 2) with
    | none => b
    | some (p, x) =>
      if x.subch != lane % 2 then b
      else
        let b := b.setBranch p.id x.out fun y => { y with st := .committed, turn := b.fwd.nextTurn }
        { b with fwd := { b.fwd with rr := Tbl.set 6 b.fwd.rr (8 * port + lane / 2) p.input, nextTurn := b.fwd.nextTurn + 1 } }

/-- Data instructions that lacked egress credit go on (R250). -/
def Block.egressPump (b : Block) : Block := if b.req.cmds.any fun c => c.ofFold then b.reqPump else b

/-! ### Route epochs (R306 to R311) -/

/-- FSYNCs of a class that left under an epoch and are not covered: (class, epoch). -/
def Block.fsyncsOut (b : Block) : List (Nat × Nat) :=
  b.req.flows.flatMap fun f => match f.broken with
    | none => []
    | some br => (br.fsyncs.filter fun x => x.2.2 != 2 && !(br.noted.contains x.1)).map fun x => (f.cls, x.2.2)

/-- ROUTE.DRAIN.COUNT: old-epoch packets held, and tracked ones injected and not covered (R310). -/
def Block.drainCount (b : Block) : Nat :=
  if b.fwd.other != 2 then 0 else
  let old := 1 - b.fwd.current
  let isOld := fun (h : Slot) => b2n (bit h 120) == old
  let core := (b.fwd.pkts.filter fun p =>
    if p.branches.isEmpty || p.local_ then isOld p.hdr else p.branches.any fun x => x.epoch == old).map (·.id)
  let sent := ((b.ports.flatMap fun q => q.flits.flatMap fun f => (f.epochs.filter fun e => e.2 == old).map (·.1)).eraseDups).filter
    fun i => !(core.contains i)
  core.length + sent.length + (b.fwd.inject.filter fun p => isOld p.hdr).length
  + (b.dest.inbox.filter fun p => isOld p.hdr).length + (b.dest.pkts.filter fun p => isOld p.pkt.hdr && !p.done).length
  + (b.fsyncsOut.filter fun x => x.2 == old).length + (b.req.posted.filter fun p => p.epoch == old && !p.noted).length + (b.req.tags.filter fun t => t.epoch == old).length

/-- FSYNCs kept back go once their class is switched and the crease is over (R309, R499). -/
def Block.releaseHeld (b : Block) : Block :=
  if b.issueHeld then b else
  let go := b.fwd.held.filter fun p => bitN b.fwd.switched (opClass (hOp p.hdr))
  let b := { b with fwd := { b.fwd with held := b.fwd.held.filter fun p => !(bitN b.fwd.switched (opClass (hOp p.hdr))) } }
  go.foldl (fun b p =>
    let f := b.flow (hDst p.hdr) (opClass (hOp p.hdr))
    let b := b.setFlow { f with broken := f.broken.map fun br =>
      { br with fsyncs := br.fsyncs.map fun x => if x.1 == hTag p.hdr then (x.1, x.2.1, b.fwd.current) else x } }
    b.inject { p with hdr := setBit p.hdr 120 (b.fwd.current == 1) }) b

/-- A tracked class whose old-epoch packets are all covered takes the new epoch (R309). -/
def Block.epochCheck (b : Block) : Block :=
  let clear := fun (c : Nat) =>
    !(b.req.posted.any fun p => p.cls == c && p.epoch != b.fwd.current && !p.noted) && !(b.fsyncsOut.contains (c, 1 - b.fwd.current))
    && !(b.req.tags.any fun t => opClass t.opcode == c && t.epoch != b.fwd.current)
  let sw := [1, 3, 4, 5].foldl (fun s c => if bitN s c || !(clear c) then s else s + 2 ^ c) b.fwd.switched
  if sw == b.fwd.switched then b else ({ b with fwd := { b.fwd with switched := sw } }).releaseHeld.reqPump

/-- DEBUG.CREASE.QUIET sets once the chip's own tracked packets are covered and it holds none (R501). -/
def Block.quietCheck (b : Block) : Block :=
  let held := (b.fwd.pkts.any fun p => tracked (opClass (hOp p.hdr))) || (b.fwd.inject.any fun p => tracked (opClass (hOp p.hdr)))
    || (b.dest.inbox.any fun p => tracked (opClass (hOp p.hdr))) || (b.dest.pkts.any fun p => !p.done && tracked p.cls)
  if !b.creased || bit (b.peek (db 0x050)) 61 || (b.req.posted.any fun p => !p.noted) || !b.fsyncsOut.isEmpty || !b.req.tags.isEmpty
    || held then b
  else (b.setRf (db 0x050) 61 61 1).trace 0x0A 0 0 2 b.time.tick

/-- What follows once packets have been covered or have left, or pass staging or the Hampers' store has room (R233, R320). -/
def Block.covers (b : Block) : Block := b.stagePump.hamperRetry.epochCheck.quietCheck

/-- Copies that an epoch switch re-routes (R318): those in the Hampers and not closed by a flush, and those that left one and wait for
room in it again, the oldest first. -/
def Block.rerouted (b : Block) : List (FPkt × Branch) :=
  let xs := b.fwd.pkts.flatMap fun p => (p.branches.filter fun x =>
    x.st = .hamper || x.st = .reading || (x.st = .waiting && x.order != 0 && !(b.portUp x.out))).map fun x => (p, x)
  xs.mergeSort fun x y => decide (x.2.order ≤ y.2.order)

/-- Held copies re-routed under the new current set, in queue order, those of several Hampers in the order in which they came (R318;
DESIGN CHOICE, log entry 20). One whose new route names another down port stands behind the packets already there. -/
def Block.reroute (b : Block) : Block :=
  b.rerouted.foldl (fun b (p, x) =>
    let out := if isMC (hOp p.hdr) then x.out else b.routeOf b.fwd.current (hDst p.hdr)
    if out == 7 then b.tearBranch p.id x.out false
    else match b.hop p.input p.sub out with
      | none => (b.bump (rt 0x0E8)).tearBranch p.id x.out false
      | some sub =>
        let b := b.setFpkt p.id fun q => { q with branches := q.branches.map fun y =>
          if y.out == x.out then { y with out, subch := sub, epoch := b.fwd.current } else y }
        if b.portUp out then (if x.st = .hamper then b.hamperOut p { x with out } else b)
        else
          let b := b.setBranch p.id out fun y =>
            { y with st := if x.st = .waiting then .waiting else .hamper, order := if x.out == out then x.order else b.fwd.nextOrder }
          { b with fwd := { b.fwd with nextOrder := b.fwd.nextOrder + 1 } }) b

/-- The armed set becomes current at the edge it was armed for, before any time passes (R37, R306, R308, R479). -/
def Block.epochSwitch (b : Block) : Block :=
  if b.fwd.other != 1 || b.time.tick < b.rf (rt 0x048) 47 0 || !b.onEdge then b
  else
    let b := { b with fwd := { b.fwd with current := 1 - b.fwd.current, other := 2, switched := 0xC5, newSeen := [], zeroEdges := 0 } }
    let b := b.trace 0x02 0 0 b.fwd.current b.drainCount
    b.reroute.covers

/-- The draining set is retired once the count has been zero at two consecutive edges (Table 8.3). -/
def Block.epochRetire (b : Block) : Block :=
  if b.fwd.other == 2 && decide (2 ≤ b.fwd.zeroEdges) then { b with fwd := { b.fwd with other := 0, zeroEdges := 0 } } else b

/-- A port's stall flag sets once a committed packet of a lane has been without credit for LIMIT edges (R301). -/
def Block.stallFlag (b : Block) (port lane : Nat) : Block :=
  let n := Tbl.get 0 b.fwd.starved (16 * port + lane)
  if (b.committed port lane).isNone || n < max 1 (b.rf (rt 0x0C0) 47 32) || decide (6 ≤ port) then b
  else
    let was := bit (b.peek (rt 0x0C0)) port
    let b := (b.setRf (rt 0x0C0) port port 1).trace 0x0C 0 port lane n
    if !was && bit (b.peek (db 0x048)) 62 && b.obs.snapDue.isNone then { b with obs := { b.obs with snapDue := some 2, snapTick := b.time.tick } } else b

/-- HAMPER_FLUSH: matching held packets are closed at once, and BUSY sets (R321). -/
def Block.hamperFlush (b : Block) (v : Word) : Block :=
  let hit := fun (p : FPkt) (x : Branch) => x.inHamper && bit v (8 + x.out) && bit v (opClass (hOp p.hdr))
    && (!(bit v 63) || (hSrc p.hdr == fld v 62 48 && hCtx p.hdr == fld v 47 36))
  let close := fun (p : FPkt) =>
    { p with branches := p.branches.map fun x => if hit p x then { x with st := .closed } else x }
  let b := { b with fwd := { b.fwd with pkts := b.fwd.pkts.map close } }
  b.setRf (rt 0x088) 35 35 1

/-- The closed packets are discarded, oldest first, and BUSY clears (R321). -/
def Block.hamperFlushDone (b : Block) : Block :=
  if !(bit (b.peek (rt 0x088)) 35) then b
  else
    let xs := b.hampered.filter fun (_, x) => x.st = .closed
    (((b.flushAll xs).flushEvents xs 0).setRf (rt 0x088) 35 35 0).covers

end Sys2Proof.Machine
end

