-- ==== Sys2Proof/Machine/Link.lean ====
section
/-!
DEFINITION. The link layer (chapter 9): flits, sequence numbers, replay and its spill, credits, INIT and going down.
-/

namespace Sys2Proof.Machine

/-! ### Flits (§9.1, §9.2) -/

/-- Fields of a flit header (Table 9.2). -/
def flSeq (h : Word) : Nat := fld h 63 44
def flAck (h : Word) : Nat := fld h 43 24
def flType (h : Word) : Nat := fld h 23 22
def flSel (h : Word) : Nat := fld h 21 17
def flLow (h : Word) : Nat := fld h 16 0

/-- Bytes 0 to 523 of a flit, which its CRC covers (R329, R331). -/
def flitBytes (hdr : Word) (body : List Slot) (echo : Nat) : List Byte :=
  toBytes 8 hdr.toNat ++ slotsBytes body ++ toBytes 4 echo

/-- Whether a flit is good (R332, R341, R343). -/
def goodFlit (f : Flit) : Bool := !f.bad && f.crc.toNat == crc32 (flitBytes f.hdr f.body f.echo.toNat)

/-- A lane's name: 2·class + sub-channel; its header counter, its data counter is the next (R359). -/
def laneCtr (lane : Nat) : Nat := 2 * lane

/-- An empty slot. -/
def emptySlot : Slot := 0

/-- A resume slot (Table 9.3). -/
def resumeSlot (lane remain : Nat) (kill : Bool) : Slot :=
  BitVec.ofNat 128 (put 0x3F 6 122 + put (lane % 2) 1 121 + put (lane / 2) 3 118 + put (b2n kill) 1 117 + put remain 9 108)

/-- Flits of the window that the replay buffer and its spill area hold together (R353, R355, R356, R358). -/
def Block.window (b : Block) (p : Nat) : Nat :=
  let q := b.port p
  if q.spillOn && b.up && !b.rst.draining then min (2 ^ 19) (3971 + 16 * (2 ^ q.spillSize / 8320)) else 3971

/-- Flits outstanding (§9.4). -/
def PortSt.outstanding (q : PortSt) : Nat := subMod 20 q.n q.o

/-- STATE.DRAINED: quiesced, no committed egress, no flit outstanding (R366). -/
def Block.drained (b : Block) (p : Nat) : Bool :=
  bit (b.peek (lk p 0x010)) 1 && (b.port p).flits.isEmpty
  && !(b.fwd.pkts.any fun x => x.branches.any fun y => y.out == p && y.st = .committed)

/-! ### Going down (R364, R367 to R370) -/

/-- A port has settled for step 6 (R418). -/
def Block.setReached (b : Block) (p : Nat) : Block := { b with boot := { b.boot with reached := b.boot.reached ||| 2 ^ p } }

/-- A port's STATE changed, with its trace event (Table 13.4); into or out of UP or QUARANTINE the patch map is published
again (R442). -/
def Block.setLinkState (b : Block) (p st : Nat) : Block :=
  let old := (b.port p).st
  if old == st then b
  else
    let b := (b.setPort p fun q => { q with st }).trace 0x01 0 p (put st 4 0 + put old 4 4 + put (b.port p).cause 4 8) 0
    let b := if 3 ≤ st then b.setReached p else b
    let b := if st == 0 || st == 3 then b.setLane p fun l => { l with tx := { l.tx with out := [] } } else b
    if st == 5 || st == 3 || old == 5 || old == 3 then b.republish else b

/-- Members that a packet would still reach below this chip, for the note of its kill (R121); before it is routed, those of every branch
of its tree. -/
def Block.below (b : Block) (p : FPkt) : Nat :=
  if !p.routed && treeOp (hOp p.hdr) then let m := b.mcRoute p.hdr p.input; (m.1.map (·.2)).sum + b2n m.2
  else (p.branches.map (·.members)).sum + b2n p.local_

/-- A packet received in part is abandoned: it never lands, and where part of it has left a kill follows on that output
(Table 9.10, R370). -/
def Block.killPkt (b : Block) (p id : Nat) (note : Bool) : Block :=
  match b.fpkt? id with
  | none => b
  | some x =>
    let members := b.below x
    let b := b.bump (lk p 0x0D8)
    let b := b.setFpkt id fun y => { y with killed := true, routed := true, local_ := false,
                                            branches := (y.branches.filter fun z => z.sent != 0).map fun z => { z with kill := true } }
    let b := b.fwdSettle id
    if note then b.torn x.hdr false members else b

/-- Packets with a copy that waits for a port. -/
def Block.portWaits (b : Block) (p : Nat) : List FPkt := b.fwd.pkts.filter fun x => x.branches.any fun y => y.out == p && y.st = .waiting

/-- A port leaves INIT or UP: its traffic is treated as Table 9.10 gives, its numbers and credits start over (R367, R369). -/
def Block.portDown (b : Block) (p cause : Nat) : Block :=
  let q := b.port p
  if q.st != 4 && q.st != 5 then b
  else
    let b := b.setPort p fun x => { x with cause, mode := 0 }
    let b := (b.setLinkState p 0).bump (lk p 0x0E0)
    let b := q.flits.foldl (fun b f => f.hdrs.foldl (fun b (h, m) => b.torn h false m) b) b
    let out := b.fwd.pkts.flatMap fun x => (x.branches.filter fun y => y.out == p && y.st = .committed).map fun y => (x.id, y.sent)
    let b := out.foldl (fun b (id, sent) => if sent == 0 then b.tearBranch id p false else b.dropBranch id p) b
    let loose := (b.portWaits p).filter fun x => !(tracked (opClass (hOp x.hdr)))
    let b := loose.foldl (fun b x => (b.bump (rt 0x0D8)).dropBranch x.id p) b
    let b := b.hamperPort p
    let part := (b.fwd.pkts.filter fun x => x.input == p && x.session == q.session && !x.whole && !x.killed).map (·.id)
    let b := part.foldl (fun b id => b.killPkt p id true) b
    let b := b.setPort p fun x => { ({} : PortSt) with cause, session := x.session + 1, limits := x.limits, budget := x.budget }
    let live := b.fwd.starved.filter fun x => x.1 / 16 != p
    ({ b with fwd := { b.fwd with starved := live } }).covers

/-! ### Sending (R333, R338, R345 to R355, R361, R362) -/

/-- The flit that a port's lanes carry now: ACK and the credit report are built afresh (R347, R351, R362). -/
def Block.onWire (b : Block) (p typ seq : Nat) (body : List Slot) (echo : Nat) : Block :=
  let q := b.port p
  let hdr := word (put seq 20 44 + put q.e 20 24 + put typ 2 22 + put q.crSel 5 17 + put (q.rxBack.getD q.crSel 0) 17 0)
  let crc := crc32 (flitBytes hdr body echo)
  ((b.setPort p fun x => { x with crSel := (x.crSel + 1) % 32, wire := some (hdr, body, echo, crc) }).flitOut p hdr body echo crc).bump
    (lk p 0x088)

/-- An IDLE flit. -/
def Block.sendIdle (b : Block) (p : Nat) : Block := b.onWire p 1 (b.port p).n (List.replicate 32 emptySlot) 0

/-- Position in the spill ring: block and body (R356). -/
def spillBody (base pos : Nat) : Nat := base * 2 ^ 20 + pos / 16 * 8320 + pos % 16 * 512
def spillTag (base pos : Nat) : Nat := base * 2 ^ 20 + pos / 16 * 8320 + 8192 + pos % 16 * 8

/-- The oldest on-block flit moved to the spill area once the block's buffer is full (R355, R356). -/
def Block.spillOldest (b : Block) (p : Nat) : Block :=
  let q := b.port p
  if (q.flits.filter fun f => !f.spilled).length < 3971 || !q.spillOn then b
  else match q.flits.find? fun f => !f.spilled with
    | none => b
    | some f =>
      let pos := q.ringNext
      let cap := 16 * (2 ^ q.spillSize / 8320)
      let b := b.setPort p fun x => { x with
        ringNext := (pos + 1) % cap,
        flits := x.flits.map fun y => if y.seq == f.seq then { y with spilled := true, pos } else y }
      let b := (b.hwrite true 0 (spillBody q.spillBase pos) (slotsBytes f.body) .lasting).hwrite true 0 (spillTag q.spillBase pos)
        (toBytes 8 (put f.seq 20 44 + put f.typ 2 42 + put f.echo 32 0)) .lasting
      b.bump (lk p 0x0D0)

/-- A new sequenced flit sent and kept for replay (R345, R355). -/
def Block.sendNew (b : Block) (p typ : Nat) (body : List Slot) (echo : Nat) (hdrs : List (Slot × Nat)) (epochs : List (Nat × Nat)) :
    Block :=
  let b := b.spillOldest p
  let q := b.port p
  let b := b.setPort p fun x => { x with
    n := (x.n + 1) % 2 ^ 20, flits := x.flits ++ [{ seq := q.n, typ, body, echo, hdrs, epochs }] }
  b.onWire p typ q.n body echo

/-- What a flit being built holds so far. -/
structure FlitAcc where
  body : List Slot := []
  echo : Nat := 0
  hdrs : List (Slot × Nat) := []
  epochs : List (Nat × Nat) := []
  cur : Option Nat
  picks : List Nat
  deriving DecidableEq, Repr

/-- Whether a lane of a port has a slot that can be sent now: a kill, or its next slot present with credit (R294, R338). -/
def Block.laneReady (b : Block) (p lane : Nat) : Bool :=
  match b.committed p lane with
  | none => false
  | some (x, y) =>
    let q := b.port p
    if y.kill then true
    else if y.sent == 0 then q.credit (laneCtr lane)
    else decide (y.sent ≤ x.data.length) && q.credit (laneCtr lane + 1)

/-- The lane of a class whose slot goes next: the ready one committed first (R32, R338). -/
def Block.laneOf (b : Block) (p cls : Nat) : Option Nat :=
  let turn := fun (l : Nat) => ((b.committed p l).map fun x => x.2.turn).getD 0
  let d0 := b.laneReady p (2 * cls)
  let d1 := b.laneReady p (2 * cls + 1)
  if d0 && (!d1 || turn (2 * cls) ≤ turn (2 * cls + 1)) then some (2 * cls) else if d1 then some (2 * cls + 1) else none

/-- Whether the class budgets let a lane be chosen: its class has share left, flits that no share covers are left, or no
ready class has share left (R39, R338). -/
def Block.mayPick (b : Block) (p lane : Nat) : Bool :=
  let left := fun (l : Nat) => (b.port p).budget.getD (l / 2) 0
  left lane != 0 || left 16 != 0 || !((List.range 16).any fun l => b.laneReady p l && left l != 0)

/-- The lane that the sender turns to where the packet in progress cannot go on (R338): that of the first of the classes `picks` which
has one that the budgets allow, else of the lowest such class (the order of classes is a DESIGN CHOICE, log entry 68); and the picks
left. -/
def Block.choose (b : Block) (p : Nat) (picks : List Nat) : Option (Nat × List Nat) :=
  let lane := fun (c : Nat) => (b.laneOf p c).filter (b.mayPick p)
  match picks.dropWhile fun c => (lane c).isNone with
  | c :: cs => (lane c).map fun l => (l, cs)
  | [] => ((List.range 8).findSome? lane).map fun l => (l, [])

/-- One slot taken from a class's share, or from what no share covers. -/
def spend (budget : List Nat) (cls : Nat) : List Nat :=
  budget.modify (if budget.getD cls 0 == 0 then 8 else cls) fun n => n - 1

/-- A slot of a committed packet sent: its credit, its class's share and its counts (R39, R361, R487). -/
def Block.sentSlot (b : Block) (p lane : Nat) (x : FPkt) (y : Branch) : Block :=
  let i := laneCtr lane + b2n (y.sent != 0)
  let b := b.setPort p fun q => { q with txUsed := q.txUsed.modify i fun n => (n + 1) % 2 ^ 24,
                                         budget := spend q.budget (lane / 2) }
  let b := b.pcBump p (lane / 2) 0
  let b := if y.sent == 0 then b.pcBump p (lane / 2) 2 else b
  let b := b.setBranch x.id p fun z => { z with sent := z.sent + 1 }
  if y.sent == hSlots x.hdr then b.dropBranch x.id p else b.fwdSettle x.id

/-- Slots of a new NORMAL flit (R334, R338): the packet in progress goes on while it can; otherwise another lane that is ready is taken,
a killed packet among them (R370); where none is, the flit closes. By fuel, one step a slot. -/
def Block.fill : Nat → Nat → Block → FlitAcc → Block × FlitAcc
  | 0, _, b, a => (b, a)
  | n + 1, p, b, a =>
    let k := a.body.length
    let close := (b, { a with
      body := a.body ++ List.replicate (n + 1) emptySlot,
      echo := a.echo + (if a.cur.isSome && k != 0 then 2 ^ k else 0), cur := if k == 0 then a.cur else none })
    match (a.cur.filter fun l => b.laneReady p l).bind fun l => ((b.committed p l).filter fun x => !x.2.kill).map fun x => (l, x) with
    | some (l, x, y) =>
      let b := b.sentSlot p l x y
      Block.fill n p b
        { a with body := a.body ++ [x.data.getD (y.sent - 1) 0], epochs := a.epochs ++ [(x.id, y.epoch)],
                                cur := if y.sent == hSlots x.hdr then none else some l }
    | none =>
      match b.choose p a.picks with
      | none => close
      | some (l, ps) =>
        match b.committed p l with
          | none => close
          | some (x, y) =>
            if y.sent == 0 then
              let h := outHdr x.hdr y
              Block.fill n p (b.sentSlot p l x y)
                { a with body := a.body ++ [h], echo := a.echo + (if a.cur.isSome then 2 ^ k else 0),
                         hdrs := a.hdrs ++ [(h, y.members)], epochs := a.epochs ++ [(x.id, y.epoch)],
                         cur := if hSlots x.hdr == 0 then none else some l, picks := ps }
            else
              let b := (b.bump (lk p 0x0C8)).setPort p fun q => { q with budget := spend q.budget (l / 2) }
              let b := if y.kill then b.dropBranch x.id p else b
              Block.fill n p b
                { a with body := a.body ++ [resumeSlot l (hSlots x.hdr + 1 - y.sent) y.kill], echo := a.echo + 2 ^ k,
                         cur := if y.kill then none else some l, picks := ps }

/-- The INIT flit's body: INIT and CREDIT_ADV messages (R365, Table 9.8). -/
def Block.initBody (b : Block) (p : Nat) : List Slot :=
  let q := b.port p
  let init : Slot := BitVec.ofNat 128 (put 1 8 120 + put q.version 8 112 + put q.mode 2 110 + put b.chipId 15 95 + put p 3 92)
  let adv := (List.range 8).map fun i =>
    (BitVec.ofNat 128 (put 2 8 120 + put i 3 117
      + ((List.range 4).map fun j => put (q.rxLimit.getD (4 * i + j) 0) 16 (16 * j)).sum) : Slot)
  init :: adv ++ List.replicate 23 emptySlot

/-- A replay step: the next flit goes out again; one in spill is read back first (R350, R351, R355). -/
def Block.replayStep (b : Block) (p a : Nat) : Block :=
  let q := b.port p
  match q.flits.find? fun f => f.seq == a with
  | none => (b.setPort p fun x => { x with replay := none }).sendIdle p
  | some f =>
    if f.spilled && !(f.bodyBack && f.tagBack) then
      let b := if f.asked then b else
        ((b.setPort p fun x => { x with flits := x.flits.map fun y => if y.seq == a then { y with asked := true } else y }).hread
            true 0 (spillBody q.spillBase f.pos) 512 (.replayRead p a false)).hread
          true 0 (spillTag q.spillBase f.pos) 8 (.replayRead p a true)
      b.sendIdle p
    else
      let nxt := (a + 1) % 2 ^ 20
      let b := b.setPort p fun x => { x with
        replay := if nxt == q.n then none else some nxt,
        flits := x.flits.map fun y => if y.seq == a then { y with bodyBack := false, tagBack := false, asked := false } else y }
      (b.onWire p f.typ a f.body f.echo).bump (lk p 0x0B8)

/-- What the data lanes carry at a flit time outside INIT and UP: an IDLE flit with a header that is zero apart from TYPE from step 6 to
SEAM (R382, Table 10.6); a training frame in steps 3 to 5 (R394); the pattern of a test, 132 symbols of it (R405, log entry 70). In a loop
inside the block the pattern, or the flits of a mission test, come back, and the line is idle (Table 10.10, R406). A port that is powered
down drives nothing (R524). -/
def Block.laneSend (b : Block) (p : Nat) : Block :=
  let st := (b.port p).st
  let step := b.lstep p
  let mode := b.testMode p
  let pat := b.rf (ln p 0x098) 60 59
  let hdr := word (put 1 2 22)
  let body := List.replicate 32 emptySlot
  let crc := crc32 (flitBytes hdr body 0)
  if !(b.lane p).powered || b.boot.extest then b
  else if st == 2 || (st == 1 && 6 ≤ step) then b.flitOut p hdr body 0 crc
  else if b.mission p then b.setLane p fun l => l.loopFlit (flitBits hdr body 0 crc)
  else if st == 1 then
    if 3 ≤ step then b.setLane p fun l => { l with tx := { l.tx with out := (List.range 16).map fun k => trainFrame k step } } else b
  else if mode == 1 || mode == 2 then b.setLane p fun l => l.loopPattern pat 132
  else if mode == 4 then
    b.setLane p fun l =>
      let r := l.gen.map (prbsLevels pat 132)
      { l with gen := r.map (·.2), tx := { l.tx with out := r.map (·.1) } }
  else b

/-- One flit time of a port (R333): in INIT or UP a NAK that is due, a replayed flit, the INIT flit, a new flit filled with
the classes `picks` in mind, or IDLE. -/
def Block.flitSend (b : Block) (p : Nat) (picks : List Nat) : Block :=
  let q := b.port p
  if q.st != 4 && q.st != 5 then b.laneSend p
  else if q.nakDue then
    let b := b.setPort p fun x => { x with nakDue := false, nakLast := some (x.e, b.time.now) }
    (b.onWire p 2 q.n (List.replicate 32 emptySlot) 0).bump (lk p 0x0A8)
  else match q.replay with
    | some a => b.replayStep p a
    | none =>
      if b.window p ≤ q.outstanding then b.sendIdle p
      else if q.st == 4 then
        if q.initSent then b.sendIdle p
        else (b.setPort p fun x => { x with initSent := true }).sendNew p 3 (b.initBody p) 0 [] []
      else
        let (b', a) := Block.fill 32 p b { cur := q.txCur, picks }
        if a.epochs.isEmpty && a.body.all (· == emptySlot) then b.sendIdle p
        else ((b'.setPort p fun x => { x with txCur := a.cur }).sendNew p 0 a.body a.echo a.hdrs a.epochs).covers

/-! ### Receiving (R341 to R350, R362) -/

/-- NAK_RETRY of a port in fabric-time units. -/
def Block.nakRetry (b : Block) (p : Nat) : Nat := 16 * b.rf (lk p 0x058) 31 0

/-- A NAK becomes due, unless one with the same E left less than NAK_RETRY ago (R348). -/
def Block.wantNak (b : Block) (p : Nat) : Block :=
  let q := b.port p
  let recent := match q.nakLast with
    | none => false
    | some (e, t) => e == q.e && decide (b.time.now - t < b.nakRetry p)
  if recent then b else b.setPort p fun x => { x with nakDue := true }

/-- An ACK applied: a valid one sets O, frees flits and ends what waited for it (R349, R350, R352, R365). -/
def Block.applyAck (b : Block) (p a : Nat) : Block :=
  let q := b.port p
  let adv := subMod 20 a q.o
  if q.outstanding < adv then b
  else if adv == 0 then b
  else
    let keep := q.flits.filter fun f => decide (adv ≤ subMod 20 f.seq q.o)
    b.setPort p fun x => { x with
      o := a, flits := keep, replays := 0, initAcked := true,
      replay := x.replay.bind fun r => if subMod 20 r q.o < adv then (if a == x.n then none else some a) else some r }

/-- A credit report applied (R362): the copy of the counter advances; a lane that gains credit is no longer starved. -/
def Block.applyCredit (b : Block) (p sel low : Nat) : Block :=
  let c := (b.port p).txBack.getD sel 0
  let adv := subMod 17 low c
  if adv == 0 then b
  else
    let b := b.setPort p fun x => { x with txBack := x.txBack.modify sel fun n => (n + adv) % 2 ^ 24 }
    { b with fwd := { b.fwd with starved := Tbl.set 0 b.fwd.starved (16 * p + sel / 2) 0 } }

/-- Bad flits among the last 2²⁰ flit positions (Table 9.12). -/
def PortSt.windowBad (q : PortSt) : List Nat := q.badPos.filter fun y => decide (q.pos < y + 2 ^ 20)

/-- Flits at positions `ps` are bad: discarded whole, counted; the window test of Table 9.9; a NAK scheduled (R332, R348, R367). -/
def Block.badFlits (b : Block) (p : Nat) (ps : List Nat) : Block :=
  let b := b.bumpN (lk p 0x098) ps.length
  let b := b.setPort p fun x => { x with badPos := x.windowBad ++ ps }
  if b.rf (lk p 0x050) 47 32 < (b.port p).badPos.length then b.portDown p 1 else b.wantNak p

/-- A crease record for a packet on the wire at the last cut (R500), whether or not the resume has come since. -/
def Block.creaseRecord (b : Block) (p : Nat) (hdr : Slot) : Block :=
  if b.obs.cutTick == 0 then b else
  let trim := signed 16 (if p < 4 then b.rf (regAt 3 0x068) (16 * p + 15) (16 * p) else b.rf (regAt 3 0x070) (16 * p - 49) (16 * p - 64))
  let sent : Int := (b.time.now : Int) - b.rf (ln p 0x090) 31 0 - trim / 2
  if (b.peek (db 0x070)).toNat ≤ sent then b
  else
    let per : Int := 16 * b.rf wPeriod 20 0
    let back := if (b.time.edge : Int) ≤ sent then 0 else ((b.time.edge : Int) - sent + per - 1) / per
    let tick := ((b.time.tick : Int) - back).toNat
    b.ringWrite (db 0x060) (db 0x068) (db 0x078) 32 fun ph =>
      [word hdr.toNat, word (hdr.toNat / 2 ^ 64), word b.time.now,
       word (put ph 1 63 + put p 3 60 + put (2 * opClass (hOp hdr) + b2n (bit hdr 121)) 4 48 + put tick 48 0)]

/-- A header slot opens a packet (R335, R336); true is a protocol error. -/
def Block.openPkt (b : Block) (p : Nat) (s : Slot) : Block × Bool :=
  let q := b.port p
  let op := hOp s
  let lane := 2 * opClass op + b2n (bit s 121)
  let i := laneCtr lane
  if op == 0 || op == 0x3F || q.rxLanes.any (fun x => x.1 == lane)
    || decide (q.rxLimit.getD i 0 ≤ subMod 24 (q.rxUsed.getD i 0) (q.rxBack.getD i 0)) then (b, true)
  else
    let (b, x) := b.enterCore s p (b2n (bit s 121)) []
    let b := ((b.pcBump p (opClass op) 1).pcBump p (opClass op) 3).creaseRecord p s
    let more := hSlots s != 0
    (b.setPort p fun y => { y with
      rxUsed := y.rxUsed.modify i fun n => (n + 1) % 2 ^ 24,
      rxLanes := if more then y.rxLanes ++ [(lane, x.id)] else y.rxLanes, rxCur := if more then some lane else none }, false)

/-- A data slot of the packet in progress (R335, R363). -/
def Block.dataSlot (b : Block) (p lane : Nat) (s : Slot) : Block × Bool :=
  let q := b.port p
  let i := laneCtr lane + 1
  match q.rxLanes.find? fun x => x.1 == lane with
  | none => (b, true)
  | some (_, id) =>
    if q.rxLimit.getD i 0 ≤ subMod 24 (q.rxUsed.getD i 0) (q.rxBack.getD i 0) then (b, true)
    else
      let b := (b.setFpkt id fun x => { x with data := x.data ++ [s] }).pcBump p (lane / 2) 1
      let whole := match b.fpkt? id with
        | none => true
        | some x => x.whole
      let outs := ((b.fpkt? id).map fun x => x.branches.map (·.out)).getD []
      let b := b.setPort p fun y => { y with
        rxUsed := y.rxUsed.modify i fun n => (n + 1) % 2 ^ 24,
        rxLanes := if whole then y.rxLanes.filter fun x => x.1 != lane else y.rxLanes,
        rxCur := if whole then none else y.rxCur }
      ((outs.foldl (fun b o => b.hamperWrite id o) b).fwdSettle id, false)

/-- A resume slot (Table 9.3, R335, R336, R370). -/
def Block.resumeAt (b : Block) (p : Nat) (s : Slot) : Block × Bool :=
  let lane := 2 * fld s 120 118 + b2n (bit s 121)
  match (b.port p).rxLanes.find? fun x => x.1 == lane with
  | none => (b, true)
  | some (_, id) =>
    let due := ((b.fpkt? id).map fun x => hSlots x.hdr - x.data.length).getD 0
    if fld s 116 108 != due then (b, true)
    else if bit s 117 then
      ((b.setPort p fun y => { y with rxLanes := y.rxLanes.filter (fun x => x.1 != lane), rxCur := none }).killPkt p id false, false)
    else (b.setPort p fun y => { y with rxCur := some lane }, false)

/-- One slot parsed (R335). -/
def Block.parseSlot (b : Block) (p : Nat) (s : Slot) (lead : Bool) : Block × Bool :=
  let b := if lead then b.setPort p fun y => { y with rxCur := none } else b
  match (b.port p).rxCur with
  | some lane => b.dataSlot p lane s
  | none =>
    if s == emptySlot then (b, false)
    else if lead && hOp s == 0x3F then b.resumeAt p s
    else b.openPkt p s

/-- The slots of an accepted NORMAL flit parsed in order; a protocol error takes the port down (R335, R336). -/
def Block.parseFlit (b : Block) (p : Nat) (f : Flit) : Block :=
  let (b, err) := (f.body.mapIdx fun k s => (k, s)).foldl (fun (acc : Block × Bool) (k, s) =>
    if acc.2 then acc else acc.1.parseSlot p s (bit f.echo k)) (b, false)
  if err then b.portDown p 5 else b

/-- The peer's limits for the four counters of a CREDIT_ADV message, CTL 0x02 (Table 9.8). -/
def Block.creditAdv (b : Block) (p : Nat) (s : Slot) : Block :=
  let part := fld s 119 117
  b.setPort p fun x => { x with txLimit := (List.range 4).foldl (fun l j => l.set (4 * part + j) (fld s (16 * j + 15) (16 * j))) x.txLimit }

/-- Whether a CONTROL flit's body holds only its messages, as R365 and R336 require of a port in INIT. -/
def PortSt.initOk (q : PortSt) (f : Flit) : Bool :=
  let i := f.body.getD 0 0
  f.echo == 0 && fld i 127 120 == 1 && fld i 119 112 == q.version && fld i 111 110 == q.mode && fld i 91 0 == 0
  && (((f.body.drop 1).take 8).all fun s => fld s 127 120 == 2 && fld s 116 64 == 0)
  && (f.body.drop 9).all (· == emptySlot)

/-- An accepted CONTROL flit (R365): a protocol error in UP or when it is malformed, a reserved CTL among it; else its CREDIT_ADV messages
are to be read. -/
def Block.controlFlit (b : Block) (p : Nat) (f : Flit) : Block :=
  let q := b.port p
  if q.st != 4 || !(q.initOk f) then b.portDown p 5
  else b.setPort p fun x => { x with initGot := true, advs := (f.body.drop 1).take 8 }

/-- INIT is left for UP once the peer's INIT flit is accepted, its messages read, and the own one acknowledged; the Hamper's packets
leave (R317, R365). -/
def Block.tryUp (b : Block) (p : Nat) : Block :=
  let q := b.port p
  if q.st == 4 && q.initGot && q.advs.isEmpty && q.initAcked then (b.setLinkState p 5).hamperRelease p else b

/-- The next CREDIT_ADV message of the accepted CONTROL flit is read (R365). -/
def Block.nextAdv (b : Block) (p : Nat) (m : Slot) : Block :=
  let q := b.port p
  match q.advs with
  | [] => b
  | s :: t => if q.st == 4 && s == m then (((b.creditAdv p s).setPort p fun x => { x with advs := t }).tryUp p).covers else b

/-- Whether a port's link layer accepts flits (R364). -/
def Block.live (b : Block) (p : Nat) : Bool := (b.port p).st == 4 || (b.port p).st == 5

/-- What the lanes have brought is taken: in INIT and UP corrected codewords count, and a parity error in E1 takes the port down (R341,
R343, R364). -/
def Block.taken (b : Block) (p : Nat) (d : Deframer) (g : Found) : Block :=
  let b := b.setLane p fun l => { l with rx := d }
  if b.live p then
    let b := b.bumpN (lk p 0x0A0) g.fixed
    if g.odd then b.portDown p 3 else b
  else b

/-- A marker (R340 to R342, R381): its FLIT_PTR is compared with the boundary tracked; on a mismatch the receiver realigns to it, and
every flit since the previous marker is bad, the one in progress too. A flit that was accepted stays accepted (log entry 71). -/
def Block.markerTaken (b : Block) (p : Nat) (air : Air) : Block :=
  match (b.lane p).rx.marker (b.logical p air) with
  | none => let r := (b.lane p).rx.arrive (b.logical p air) 1; b.taken p r.1 r.2
  | some (d, m, g) =>
    let pos := (b.port p).pos
    let b := b.taken p { d with mark := pos } g
    match m with
    | none => b
    | some (ptr, _) =>
      if ptr == d.tracked then b
      else
        let b := b.setLane p fun l => { l with rx := { l.rx with chunks := [], skip := ptr } }
        if !(b.live p) then b
        else
          let q := b.port p
          let past := ((List.range (pos - d.mark)).map fun i => d.mark + 1 + i).filter fun x => !(q.badPos.contains x)
          let part := if d.skip < streamLen d.chunks then 1 else 0
          (b.setPort p fun x => { x with pos := x.pos + part }).badFlits p (past ++ (List.range part).map fun i => pos + 1 + i)

/-- A lane of ALIGN looks for its marker at its bit boundary; four in a row are marker lock (R396). -/
def LaneInfo.search (x : LaneInfo) (mode : Nat) (ls : List Nat) : LaneInfo :=
  let ls := x.upright ls
  if markerHere mode x.peerLane x.off ls then { x with run := x.run + 1, marker := x.marker || decide (3 ≤ x.run) } else { x with run := 0 }

/-- Every lane looks for its marker (R396). -/
def Block.markerSearch (b : Block) (p : Nat) (air : Air) : Block :=
  b.setLane p fun l => { l with lanes := l.lanes.mapIdx fun k x => x.search l.mode (air.getD k []) }

/-- The place of a marker on the lanes, after what came before it (R341, R396). -/
def Block.marker (b : Block) (p : Nat) (air mark : Air) : Block :=
  if (b.port p).st == 1 && b.lstep p == 6 then b.markerSearch p mark
  else if b.framed p then b.markerTaken p (joinAir air mark) else b

/-- A sequenced flit in turn is accepted, one from later on asks for a NAK, `d` places past the expected one (Table 9.4). -/
def Block.takeSeq (b : Block) (p : Nat) (f : Flit) (typ d : Nat) : Block :=
  if (typ == 0 || typ == 3) && d == 0 then
    let q := b.port p
    let b := b.setPort p fun x => { x with e := (x.e + 1) % 2 ^ 20 }
    if typ == 0 then (if q.st == 4 && !q.initGot then b.portDown p 5 else b.parseFlit p f) else b.controlFlit p f
  else if d != 0 && decide (d < 2 ^ 19) then b.wantNak p
  else b

/-- A NAK that acknowledges `a` starts a replay, or moves one back, unless nothing is left to send again (R349, R350). -/
def Block.onNak (b : Block) (p a : Nat) : Block :=
  let b := b.bump (lk p 0x0B0)
  let x := b.port p
  if x.o != a || a == x.n then b
  else match x.replay with
    | none => b.setPort p fun y => { y with replay := some a }
    | some r => if subMod 20 a x.o < subMod 20 r x.o then b.setPort p fun y => { y with replay := some a } else b

/-- A flit on a port in INIT or UP (R341 to R350). -/
def Block.acceptFlit (b : Block) (p : Nat) (f : Flit) (typ : Nat) : Block :=
  if !(b.live p) then b
  else
    let q := b.port p
    let b := b.setPort p fun x => { x with pos := x.pos + 1 }
    if !(goodFlit f) then b.badFlits p [q.pos + 1]
    else
      let b := b.bump (lk p 0x090)
      let b := ((b.applyAck p (flAck f.hdr)).applyCredit p (flSel f.hdr) (flLow f.hdr)).tryUp p
      let b := (b.takeSeq p f typ (subMod 20 (flSeq f.hdr) q.e)).tryUp p
      (if typ == 2 then b.onNak p (flAck f.hdr) else b).covers

/-- What the lanes bring up to the end of a flit (R341 to R350): outside INIT and UP it is only checked (R364, R382). -/
def Block.recvFlit (b : Block) (p : Nat) (air : Air) (typ now : Nat) : Block :=
  if !(b.framed p) then b
  else
    let r := (b.lane p).rx.arrive (b.logical p air) 0
    match r.1.flit with
    | none => (b.clock now).taken p r.1 r.2
    | some (f, d) => if !f.bad && flType f.hdr != typ then b else ((b.clock now).taken p d r.2).acceptFlit p f typ

/-- REPLAY_TIMEOUT has passed without O advancing (R352). -/
def Block.replayTimeout (b : Block) (p : Nat) : Block :=
  let q := b.port p
  if (q.st != 4 && q.st != 5) || q.flits.isEmpty then b
  else if max 1 (b.rf (lk p 0x050) 15 8) ≤ q.replays then b.portDown p 4
  else (b.setPort p fun x => { x with replay := some x.o, replays := x.replays + 1 }).bump (lk p 0x0C0)

/-- INIT has not been left within 100 µs (R364, Table 9.9). -/
def Block.initTimeout (b : Block) (p : Nat) : Block := if (b.port p).st == 4 then b.portDown p 9 else b

/-- A part of a spilled flit has been read back: its tag must name the flit expected there (R357). -/
def Block.replayBack (b : Block) (p seq : Nat) (tag : Bool) (data : List Byte) (bad : Bool) : Block :=
  let q := b.port p
  if !(q.flits.any fun f => f.seq == seq && f.spilled && f.asked) then b
  else if bad then b.portDown p 6
  else if tag then
    let w := ofBytes data
    if bits w 63 44 != seq then b.portDown p 6
    else b.setPort p fun x => { x with flits := x.flits.map fun f =>
      if f.seq == seq then { f with tagBack := true, typ := bits w 43 42, echo := bits w 31 0 } else f }
  else b.setPort p fun x => { x with flits := x.flits.map fun f =>
    if f.seq == seq then { f with bodyBack := true, body := bytesSlots data } else f }

/-- A port enters INIT (R345, R360, R364): numbers and counters at 0, limits and spill area latched. -/
def Block.enterInit (b : Block) (p mode version : Nat) : Block :=
  let sp := b.peek (lk p 0x060)
  let b := b.setPort p fun x => { ({} : PortSt) with
    st := x.st, mode, version, cause := x.cause, session := x.session, limits := x.limits, rxLimit := x.limits, budget := x.budget,
    spillOn := bit sp 63, spillBase := fld sp 51 20, spillSize := fld sp 4 0 }
  let b := b.setLane p fun l => { l with tx := { l.tx with base := l.tx.marks }, rx := { l.rx with mark := 0 } }
  b.setLinkState p 4

/-- Flits that a port can send in one tick period (§1.8, R333, R342): 789.8 per µs in E2 at 224 Gb/s, in proportion at
lower rates, 417.6 per µs in E1. -/
def Block.tickFlits (b : Block) (p : Nat) : Nat :=
  let ns := b.rf wPeriod 20 0
  if (b.port p).mode == 1 then ns * 4176 / 10000
  else
    let r := b.rf (ln p 0x040) 59 58
    ns * (if r == 0 then 19745 else if r == 1 then 39490 else 78980) / 100000

/-- Each port grants each class its share of the coming tick, in slots; a class that has spent the share granted at the last edge, or was
granted none, and still has a packet waiting is counted (R39, R373, R487). -/
def Block.grantBudgets (b : Block) : Block :=
  (List.range 6).foldl (fun b p =>
    let q := b.port p
    let b := (List.range 8).foldl (fun b c =>
      if q.st == 5 && q.budget.getD c 0 == 0
        && (!(b.waitingFor p c).isEmpty || (b.committed p (2 * c)).isSome || (b.committed p (2 * c + 1)).isSome) then
        b.pcBump p c 4 else b) b
    let shares := (List.range 8).map fun c => b.rf (lk p 0x0E8) (8 * c + 7) (8 * c)
    b.setPort p fun x => { x with budget := (shares ++ [256 - shares.sum]).map fun n => n * b.tickFlits p * 32 / 256 }) b

end Sys2Proof.Machine
end

