-- ==== Sys2Proof/Machine/Lanes.lean ====
section
/-!
DEFINITION. Lanes, pilot lane and training (chapter 10): steps, rate choice, taps, figures of merit, starch records, link
delay and the seam check.
-/

namespace Sys2Proof.Machine

/-- Whether a port may leave DOWN: sealed on an axis longer than 1, powered, its replay buffer good, start-up past step 4
and not stopped, no EXTEST in force and no cold reset requested (R392, R416, R422, R423, R467, R518, R524). -/
def Block.trainable (b : Block) (p : Nat) : Bool :=
  let stage := b.bootStage
  decide (p < 6) && b.rf wSealLeft 63 63 == 1 && b.axisLen (p / 2) != 1 && (b.lane p).powered && !(b.lane p).powering
  && !(bitN b.boot.portFailed p) && decide (5 ≤ stage) && stage != 0xF && !b.boot.extest && !b.rst.coldReq && !b.boot.coldHeld

/-- A port goes to DOWN from any state (Tables 9.7, 9.9, 10.7). -/
def Block.toDown (b : Block) (p cause : Nat) : Block :=
  let st := (b.port p).st
  if st == 0 then b
  else
    let b := b.setLs p 63 60 0
    let b := b.setLane p fun l => { l with done := false, told := false, starch := false, adapt := {}, asked := 0, t1 := none }
    if st == 4 || st == 5 then b.portDown p cause
    else
      let b := b.setPort p fun q => { q with cause, mode := 0, version := 0 }
      (b.setLinkState p 0).bump (lk p 0x0E0)

/-- Training starts, or starts again, at step 1 (R392, R399); rates already removed stay so where `keep` is set. It waits for a core that
restarts (R428, R458). -/
def Block.startTraining (b : Block) (p : Nat) (keep : Bool) : Block :=
  if !(b.trainable p) then b
  else if b.boot.restarting then
    { b with boot := { b.boot with trainDue := if b.boot.trainDue.contains p then b.boot.trainDue else b.boot.trainDue ++ [p] } }
  else
    let b := ((b.setLs p 63 60 1).setLs p 53 50 0).setLs p 59 58 3
    let b := b.setLane p fun l => { l with
      lanes := l.lanes.map (fun x => { x with measured := false, marker := false, run := 0 }), done := false, told := false,
      adapt := {}, peerStep := 0, peerDone := false, caps := none, removed := if keep then l.removed else 0, mode := 0, heldTaps := 0, starch := false,
      seen := none, result := none, peerResult := none, asked := 0, t1 := none, flights := [], slip := none }
    (b.setRf (ln p 0x068) 63 63 0).setLinkState p 1

/-- An end of training: DOWN with cause TRAINING_FAIL, the reason in FAIL_CAUSE (R398). -/
def Block.endTraining (b : Block) (p cause : Nat) : Block :=
  let b := (((b.setLs p 53 50 cause).setLs p 59 58 3).bump (ln p 0x0C0)).setReached p
  b.toDown p 0xA

/-! ### Rate and mode (R377, R393, R530) -/

/-- Modes that this end allows: bit 0 E1, bit 1 E2 (R344, R393). -/
def Block.ownModes (b : Block) (p : Nat) : Nat := b.rf (lk p 0x048) 58 58 + 2 * b.rf (lk p 0x048) 59 59

/-- Data of this end's CAPS (Table 10.5): rates allowed within the fused limit, and modes. -/
def Block.ownCaps (b : Block) (p : Nat) : Nat := (b.rf (ln p 0x048) 63 61 &&& b.fusedRates) + 8 * b.ownModes p

/-- The highest rate usable with a peer's CAPS among the rates `own`, less those removed, and the mode. -/
def chooseRate (own modes removed caps : Nat) : Option Nat × Nat :=
  let m := modes &&& (caps / 8)
  let mode := if bitN m 1 then 2 else m % 2
  (([2, 1, 0].find? fun r => bitN own r && bitN caps r && !(bitN removed r) && (mode == 2 || (mode == 1 && r == 1))), mode)

/-- Step 2 begins: the rate and mode are chosen; a choice that the fused limit lowers sets CLAMPED; no usable rate ends
training, with NO_COMMON_RATE unless a rate has failed before (R393, R398). -/
def Block.enterRate (b : Block) (p cause : Nat) : Block :=
  let l := b.lane p
  let caps := l.caps.getD 0
  let (rate, mode) := chooseRate (b.rf (ln p 0x048) 63 61 &&& b.fusedRates) (b.ownModes p) l.removed caps
  let (free, _) := chooseRate (b.rf (ln p 0x048) 63 61) (b.ownModes p) l.removed caps
  let b := if free.getD 0 > rate.getD 0 then b.setRf (regAt 0x01 0x840) 35 35 1 else b
  match rate with
  | none => b.endTraining p (if l.removed == 0 then 7 else cause)
  | some r => (b.setLs p 59 58 r).setLane p fun x => { x with mode }

/-! ### Starch records (R402 to R404) -/

/-- Word `i` of a port's starch window. -/
def Block.starchWord (b : Block) (p i : Nat) : Word := b.peek (ln p (0x100 + 8 * i))

/-- CRC-32 of the record's bytes 0 to 315 (Table 10.8). -/
def starchCrc (ws : List Word) : Nat := crc32 ((wordsBytes ws).take 316)

/-- Expected neighbour of a port: chip and port (R413). -/
def Block.expected (b : Block) (p : Nat) : Nat × Nat :=
  let a := p / 2
  let n := b.axisLen a
  let x := coord b.chipId a
  let y := if p % 2 == 0 then (x + 1) % n else (x + n - 1) % n
  (b.chipId - x * 32 ^ a + y * 32 ^ a, if p % 2 == 0 then p + 1 else p - 1)

/-- The check of R403: 0 where the record is used, else the code of REJECTED. -/
def Block.starchCheck (b : Block) (p : Nat) : Nat :=
  let ws := (List.range 40).map (b.starchWord p)
  let w0 := b.starchWord p 0
  let w1 := b.starchWord p 1
  let st := b.peek (ln p 0x040)
  let (chip, port) := b.expected p
  if fld w0 63 48 != 0x0A06 || fld w0 47 40 != 1 || starchCrc ws != fld (b.starchWord p 39) 63 32 then 1
  else if fld w0 36 22 != b.chipId || fld w0 39 37 != p then 2
  else if fld w1 63 62 != fld st 59 58 then 3
  else if fld w0 21 7 != chip || fld w0 6 4 != port then 4
  else if fld w1 61 61 != fld st 57 57 || fld w1 60 45 != fld st 49 34 then 5
  else 0

/-- A lane's receiver settings from its words of the record (Table 10.8). -/
def starchLane (x : LaneInfo) (a c : Word) : LaneInfo :=
  { x with ctle := fld a 23 18, gain := fld a 17 12,
           dfe := (List.range 6).map fun i => fld c (63 - 8 * i) (56 - 8 * i) }

/-- Taps of the peer's transmitter on a lane that a record names: PRE2, PRE1, POST1, POST2 (Table 10.8). -/
def starchTaps (a : Word) : List Int := [56, 48, 32, 24].map fun lo => signed 8 (fld a (lo + 7) lo)

/-- Full adaptation begins: preset TXP0 is requested on every lane (R401). -/
def Adapt.begin : Adapt := { phase := .sweep 0, codes := List.replicate 16 1, due := true, top := List.replicate 16 (0, 0) }

/-- Step 5 begins: the record is checked where STARCH_EN is 1, and used where it passes: the peer's transmitters are to go from TXP0 to
the record's taps (R403, R404); otherwise adaptation runs in full. -/
def Block.enterAdapt (b : Block) (p : Nat) : Block :=
  let code := if bit (b.peek (ln p 0x048)) 60 then b.starchCheck p else 0
  let use := bit (b.peek (ln p 0x048)) 60 && code == 0
  let b := ((b.setRf (ln p 0x090) 63 63 (b2n use)).setRf (ln p 0x090) 62 60 code).setLs p 54 54 0
  let load := fun (k : Nat) (x : LaneInfo) => starchLane x (b.starchWord p (4 + 2 * k)) (b.starchWord p (5 + 2 * k))
  let goal := (List.range 16).map fun k => starchTaps (b.starchWord p (4 + 2 * k))
  let b' := b.setLane p fun l => { l with
    starch := use, lanes := (if use then l.lanes.mapIdx load else l.lanes).map fun x => { x with measured := false },
    adapt := if use then { phase := .starch, codes := List.replicate 16 1, due := true, goal } else Adapt.begin }
  if use then b'.setLane p fun l => { l with pilotSet := b.starchWord p 36 } else b'

/-- The main tap: what the other four leave of full swing (R390). -/
def mainTap (taps : List Int) : Int := 64 - (taps.map fun t => (t.natAbs : Int)).sum

/-- Eight bits of a signed number. -/
def byteOf (i : Int) : Nat := (i % 256).toNat

/-- The starch record of the settings in use written into the window (R402, Table 10.8). The taps are those that this end
has asked of its peer's transmitters (R404); firmware keeps a copy (R467). -/
def Block.writeStarch (b : Block) (p : Nat) : Block :=
  let l := b.lane p
  let st := b.peek (ln p 0x040)
  let peer := b.peek (ln p 0x078)
  let w0 := word (put 0x0A06 16 48 + put 1 8 40 + put p 3 37 + put b.chipId 15 22 + put (fld peer 63 49) 15 7 + put (fld peer 48 46) 3 4)
  let w1 := word (put (fld st 59 58) 2 62 + put (fld st 57 57) 1 61 + put (fld st 49 34) 16 45 + put (fld st 55 55) 1 44
    + put (b.rf (regAt 0x01 0x818) 31 0) 32 0)
  let laneWords := fun (x : LaneInfo) =>
    let t := fun (i : Nat) => byteOf (x.far.getD i 0)
    [word (put (t 0) 8 56 + put (t 1) 8 48 + put (byteOf (mainTap x.far)) 8 40 + put (t 2) 8 32 + put (t 3) 8 24
      + put x.ctle 6 18 + put x.gain 6 12),
     word (((List.range 6).map fun i => put (x.dfe.getD i 0) 8 (56 - 8 * i)).sum + put x.fom 16 0)]
  let pilot := if l.pilotSet == 0 then Config.freeValue b.free else l.pilotSet
  let w36 := word (put (fld pilot 63 42) 22 42)
  let ws := [w0, w1, word (put b.time.tick 48 0), 0] ++ l.lanes.flatMap laneWords ++ [w36, 0, 0]
  let ws := ws ++ [word (put (starchCrc (ws ++ [0])) 32 32)]
  let b := { b with free := if l.pilotSet == 0 then b.free + 1 else b.free }
  let b := b.setLane p fun x => { x with pilotSet := w36 }
  let kept := (ws.mapIdx fun i w => (64 * p + i, w)).foldl (fun t (k, w) => Tbl.set 0 t k w) b.boot.starch
  (ws.mapIdx fun i w => (i, w)).foldl (fun b (i, w) => b.poke (ln p (0x100 + 8 * i)) w) { b with boot := { b.boot with starch := kept } }

/-! ### Steps (R392, R398) -/

/-- SEAM is entered (R411). -/
def Block.enterSeam (b : Block) (p : Nat) : Block :=
  let (chip, port) := b.expected p
  let b := b.setLs p 63 60 0
  let b := b.poke (ln p 0x088) (word (put 1 4 60 + put (b.lane p).mode 2 50 + put chip 15 35 + put port 3 32))
  b.setLinkState p 2

/-- ALIGN begins: mission framing of IDLE flits, and each lane's search for its marker (Table 10.6, R396). -/
def Block.enterAlign (b : Block) (p : Nat) : Block :=
  b.setLane p fun l => { l with
    tx := Framer.fresh l.mode, lanes := l.lanes.map fun x => { x with marker := false, run := 0, off := 0 } }

/-- FEC_LOCK begins: the lanes are deskewed by their markers, and GROUP counts from here (R396, R397, Table 10.3). -/
def Block.enterFec (b : Block) (p : Nat) : Block :=
  b.setLane p fun l => { l with tx := { l.tx with base := l.tx.marks }, rx := Deframer.fresh l.mode }

/-- A step begins (Table 10.6). -/
def Block.enterStep (b : Block) (p k : Nat) : Block :=
  let b := (b.setLs p 63 60 (if k == 8 then 0 else k)).setLane p fun l => { l with done := false, told := false }
  if k == 2 then b.enterRate p 7 else if k == 5 then b.enterAdapt p else if k == 6 then b.enterAlign p
  else if k == 7 then b.enterFec p else if k == 8 then b.enterSeam p else b

/-- The next step begins once both ends have finished this one and this end has announced it (R392). While the management core restarts, a
training in progress goes no further: it starts again (R428). -/
def Block.advance (b : Block) (p : Nat) : Block :=
  let l := b.lane p
  let s := b.lstep p
  if (b.port p).st == 1 && !b.boot.restarting && l.done && l.told && (decide (s < l.peerStep) || (l.peerStep == s && l.peerDone)) then b.enterStep p (s + 1)
  else b

/-- This end has finished a step of TRAINING; its next TRAIN says so. -/
def Block.stepDone (b : Block) (p k : Nat) : Block :=
  if (b.port p).st != 1 || b.boot.restarting || b.lstep p != k || (b.lane p).done then b
  else b.setLane p fun l => { l with done := true }

/-- Whether a port is in a step that it has not finished. -/
def Block.inStep (b : Block) (p k : Nat) : Bool := (b.port p).st == 1 && b.lstep p == k && !(b.lane p).done

/-- A step after step 1 fails at the rate in use: training goes on from step 2 without that rate (R398). -/
def Block.stepFail (b : Block) (p cause : Nat) : Block :=
  let rate := b.rf (ln p 0x040) 59 58
  let b := b.setLane p fun l => { l with
    done := false, told := false, peerStep := 0, peerDone := false, starch := false, adapt := {}, removed := l.removed ||| 2 ^ rate,
    lanes := l.lanes.map fun x => { x with measured := false, marker := false, run := 0 } }
  (b.setLs p 63 60 2).enterRate p cause

/-- FAIL_CAUSE of a step that passes its limit (Table 10.11). -/
def stepCause (k : Nat) : Nat := if k == 3 then 2 else if k == 4 then 3 else if k == 5 then 4 else if k == 6 then 5 else if k == 7 then 6 else 8

/-- A training step passes its limit (R398). -/
def Block.stepTimeout (b : Block) (p : Nat) : Block :=
  if (b.port p).st != 1 || b.boot.restarting then b
  else if b.lstep p == 1 then b.endTraining p (if b.pilotLock p then 8 else 1)
  else b.stepFail p (stepCause (b.lstep p))

/-- Step 1 ends for this end: lock, and the peer's CAPS. -/
def Block.pilotStep (b : Block) (p : Nat) : Block :=
  if b.pilotLock p && (b.lane p).caps.isSome then b.stepDone p 1 else b

/-- Order and polarity of the sixteen lanes are read from the identities that they bring (R395); a lane that brings none leaves the step
open. -/
def Block.orderStep (b : Block) (p : Nat) (ids : Air) : Block :=
  let found := (List.range 16).filterMap fun k => readIdentity (ids.getD k [])
  if !(b.inStep p 4) || found.length != 16 then b
  else
    let order := found.map (·.1)
    let pol := (found.mapIdx fun k (x : Nat × Bool) => if x.2 then 2 ^ k else 0).sum
    let rev := order == (List.range 16).map fun k => 15 - k
    if order != List.range 16 && !rev then b.endTraining p 3
    else
      let b := (b.setLs p 57 57 (b2n rev)).setLs p 49 34 pol
      let b := b.setLane p fun l => { l with
        lanes := l.lanes.mapIdx fun k x => { x with peerLane := order.getD k 0, inverted := bitN pol k } }
      b.stepDone p 4

/-! ### Figures of merit (R400, R401) -/

/-- D of a lane: 30 − ⌈log₂(ERR + 1)⌉, at least 0. ⌈log₂(n + 1)⌉ is the number of bits of n. -/
def fomD (err : Nat) : Nat := 30 - bitLen 64 err

/-- The code that asks tap `t` (PRE2, PRE1, POST1, POST2) for a step, and its DOWN2 bit (R390). -/
def tapCode (t : Nat) (up : Bool) : Nat × Bool := if t == 3 then (0xF, !up) else (9 + 2 * t + b2n (!up), false)

/-- One tap request on a transmitter's taps (R390): the taps, and whether the request is held. -/
def applyTap (taps : List Int) (code : Nat) (down : Bool) : List Int × Bool :=
  if code == 0 then (taps, false)
  else if code ≤ 8 then ((List.range 4).map (Config.txPreset (code - 1)), false)
  else
    let i := if code == 0xF then 3 else (code - 9) / 2
    let up := if code == 0xF then !down else code % 2 == 1
    let t := taps.modify i fun x => if up then x + 1 else x - 1
    if mainTap t < 0 then (taps, true) else (t, false)

/-- The step that takes a transmitter's taps towards those of a record: the first tap that differs and is not held at its limit; code 0
where none is left (R404). -/
def stepTo (taps goal : List Int) : Nat × Bool :=
  let step := fun (t : Nat) => tapCode t (decide (taps.getD t 0 < goal.getD t 0))
  match (List.range 4).find? fun t => taps.getD t 0 != goal.getD t 0 && !(applyTap taps (step t).1 (step t).2).2 with
  | some t => step t
  | none => (0, false)

/-- Requests of sixteen lanes put into the program. -/
def Adapt.ask (a : Adapt) (phase : AdaptPhase) (reqs : List (Nat × Bool)) : Adapt :=
  { a with phase, codes := reqs.map (·.1), down2 := (reqs.mapIdx fun k r => if r.2 then 2 ^ k else 0).sum, due := true }

/-- A round's tap is asked up one step on every lane. -/
def Adapt.askUp (a : Adapt) (round tap : Nat) (foms : List Nat) : Adapt :=
  { a with before := foms }.ask (.up round tap) (List.replicate 16 (tapCode tap true))

/-- What follows a request that has left: the steps to a record's taps go on until none is left; the rounds begin once the best presets
are asked for (R401, R404). -/
def Adapt.sent (a : Adapt) (lanes : List LaneInfo) : Adapt :=
  let a := { a with codes := [], down2 := 0, due := false }
  match a.phase with
  | .starch =>
    let next := (lanes.zip a.goal).map fun (x, g) => stepTo x.far g
    if next.all fun r => r.1 == 0 then a else a.ask .starch next
  | .best => let foms := a.top.map (·.1); ({ a with start := foms }).askUp 0 0 foms
  | _ => a

/-- What follows a window measured after the request: the outline of R401. -/
def Adapt.measured (a : Adapt) (foms : List Nat) : Adapt :=
  match a.phase with
  | .sweep k =>
    let top : List (Nat × Nat) := (a.top.zip foms).map fun (x, f) => if k == 0 || decide (x.1 < f) then (f, k) else x
    if k < 7 then ({ a with top }).ask (.sweep (k + 1)) (List.replicate 16 (k + 2, false))
    else ({ a with top }).ask .best (top.map fun (x : Nat × Nat) => (x.2 + 1, false))
  | .up r t =>
    let reqs := (foms.zip a.before).map fun (f, o) => if o < f then (0, false) else tapCode t false
    ({ a with before := foms }).ask (.down r t) reqs
  | .down r t =>
    if t < 3 then a.askUp r (t + 1) foms
    else if r + 1 == 32 || !((foms.zip a.start).any fun (f, o) => decide (o + 64 ≤ f)) then { a with phase := .ended }
    else ({ a with start := foms }).askUp (r + 1) 0 foms
  | _ => a

/-- A window of 2³⁰ symbols has ended in step 5: each lane's errors and eye height, and the program's next request once the window
measured the last one (R400, R401). -/
def Block.fomStep (b : Block) (p : Nat) (wins : List (List (Nat × List Nat))) (ehs : List Nat) : Block :=
  let upd := fun (k : Nat) (x : LaneInfo) =>
    let d := fomD (frameErrors x.peerLane ((wins.getD k []).map fun r => (r.1, x.upright r.2)))
    let eh := min 255 (ehs.getD k 0)
    { x with measured := x.measured || !(b.lane p).adapt.due, d, eh, fom := 256 * d + eh }
  let b := b.setLane p fun l =>
    let lanes := l.lanes.mapIdx upd
    { l with lanes, adapt := if l.adapt.due then l.adapt else l.adapt.measured (lanes.map (·.fom)) }
  b.setLs p 15 0 (((b.lane p).lanes.map (·.fom)).foldl min 7935)

/-- Symbols of a pattern test checked on one lane: how many differ, and the checker's register after them (R405). -/
def checkRun (pat : Nat) (acc : Nat × Nat) (run : Nat × List Nat) : Nat × Nat :=
  (List.range run.1).foldl (fun a _ => let want := prbsLevels pat run.2.length a.2; (a.1 + differ run.2 want.1, want.2)) acc

/-- Symbols received on the line in a pattern test: PATTERN checks them, FAR_END sends them back (R405, Table 10.10); in a loop inside the
block each lane checks what it sends as it sends it (`LaneSt.loopPattern`), and the line brings nothing. -/
def Block.testWindow (b : Block) (p : Nat) (wins : List (List (Nat × List Nat))) : Block :=
  let mode := b.testMode p
  let pat := b.rf (ln p 0x098) 60 59
  b.setLane p fun l =>
    if mode == 3 then
      { l with tx := { l.tx with out := wins.map fun runs => runs.flatMap fun r => (List.replicate r.1 r.2).flatten } }
    else if mode != 4 then l
    else
      let r := (l.chk.zip wins).map fun (s, runs) => runs.foldl (checkRun pat) (0, s)
      { l with chk := r.map (·.2), prbs := l.prbs.mapIdx fun k v => satAdd v ((r.getD k (0, 0)).1) }

/-- FOM_WINDOW_END: in step 5 a measurement; in a pattern test the symbols that it has checked (log entry 70). -/
def Block.fomWindow (b : Block) (p : Nat) (wins : List (List (Nat × List Nat))) (ehs : List Nat) : Block :=
  if b.inStep p 5 then b.fomStep p wins ehs
  else if b.testMode p != 0 && (b.lane p).powered && !b.boot.extest then b.testWindow p wins else b

/-- ADAPT ends with the receiver settings it found (R401, R404): peaking, gain and feedback taps of each lane. With a record it ends after
one window with the record's taps; in full, once the program has ended. -/
def Block.adaptStep (b : Block) (p : Nat) (settings : List (Nat × Nat × List Nat)) : Block :=
  let a := (b.lane p).adapt
  let quick := (b.lane p).starch && !a.due && (b.lane p).lanes.all (·.measured)
  if !(b.inStep p 5) || !(quick || decide (a.phase = .ended)) then b
  else
    let upd := fun (k : Nat) (x : LaneInfo) => match settings.drop k with
      | [] => x
      | (c, g, d) :: _ => { x with ctle := c % 32, gain := g % 64, dfe := d.map (· % 256) }
    let b := b.setLane p fun l => { l with lanes := l.lanes.mapIdx upd }
    let l := b.lane p
    let need := b.fomMin p l.mode
    let all := fun (m : Nat) => l.lanes.all fun x => x.measured && decide (m ≤ x.fom)
    if quick then
      if all (need + b.rf (ln p 0x050) 31 16) then (b.setLs p 54 54 1).stepDone p 5
      else ((b.setRf (ln p 0x090) 63 63 0).setRf (ln p 0x090) 62 60 6).setLane p fun x => { x with starch := false, adapt := Adapt.begin }
    else if all need then b.stepDone p 5
    else b.stepFail p 4

/-- Every lane has marker lock, and the lanes are deskewed (R396). -/
def Block.alignStep (b : Block) (p : Nat) : Block :=
  if (b.lane p).lanes.all (·.marker) then b.stepDone p 6 else b

/-- FEC_LOCK's run is clean: four markers in a row with consecutive values of GROUP, and no uncorrectable codeword among the last 65,536
in E2, no parity error in 2²⁰ words a lane in E1 (R397). -/
def Block.fecStep (b : Block) (p : Nat) : Block :=
  let d := (b.lane p).rx
  if decide (4 ≤ d.groups) && decide ((if d.mode == 1 then 2 ^ 20 else 65536) ≤ d.clean) then b.stepDone p 7 else b

/-! ### Pilot messages (R385 to R391) -/


/-- MTYPE and IMM of a message. -/
def pmType (m : PilotMsg) : Nat := fld m.ctl 63 56
def pmImm (m : PilotMsg) : Word := word (fld m.ctl 51 32)

/-- Whether a port's pilot lane receives: powered and in symbol lock. -/
def Block.pilotOn (b : Block) (p : Nat) : Bool := (b.lane p).powered && b.pilotLock p

/-- Symbol lock lost: a loss is counted, its time begins to run, and a new boundary is searched for (R384). -/
def Block.pilotLost (b : Block) (p : Nat) : Block :=
  if !(b.pilotLock p) then b
  else ((b.setLs p 56 56 0).bump (ln p 0x0B0)).setLane p fun l => { l with lossRunning := true, headers := [] }

/-- Blocks arrive at the boundary in use: their headers join those of the last 64, and where 16 of these are invalid the lock is lost; the
descrambler moves on (R383, R384). -/
def Block.pilotSee (b : Block) (p : Nat) (m : List PilotBlock) : Block :=
  m.foldl (fun b x =>
    let b := b.setLane p fun l => { l.seeHeader (headerOk x) with pilotRx := pilotAfter [x] l.pilotRx }
    if b.pilotLock p && (b.lane p).headersBad then b.pilotLost p else b) b

/-- Blocks of a message arrive: what they spell in the polarity under which its CRC passes, which is the polarity in use from then on
(R386); the block with their headers seen. -/
def Block.pilotTake (b : Block) (p : Nat) (m : List PilotBlock) : Block × Option PilotMsg :=
  let rx := (b.lane p).pilotRx
  let flip := bit (b.peek (ln p 0x040)) 55
  let b := b.pilotSee p m
  if !(b.pilotLock p) then (b, none)
  else if !(pilotPasses flip m rx) && pilotPasses (!flip) m rx then (b.setLs p 55 55 (b2n (!flip)), pilotSpell (!flip) m rx)
  else (b, pilotSpell flip m rx)

/-- A message of type `t` arrives: one whose CRC fails is discarded and counted (R385). -/
def Block.pilotIn (b : Block) (p t : Nat) (m : List PilotBlock) (go : Block → PilotMsg → Block) : Block :=
  if !(b.pilotOn p) then b
  else match b.pilotTake p m with
    | (b', none) => b'
    | (b', some m) => if !(pmGood m) then b'.bump (ln p 0x0A8) else if pmType m != t then b else go b' m

/-- A message that is discarded: its CRC fails, or its MTYPE is reserved (R385, R387). -/
def Block.pilotDiscard (b : Block) (p : Nat) (m : List PilotBlock) : Block :=
  if !(b.pilotOn p) then b
  else match b.pilotTake p m with
    | (b', none) => b'
    | (b', some m) => if !(pmGood m) then b'.bump (ln p 0x0A8) else if decide (0x0A ≤ pmType m) then b'.bump (ln p 0x0B8) else b

/-- TRAIN of this end (Table 10.5), carrying the lane requests and DOWN2 that adaptation asks for, each under the number of the peer's lane
(R395). -/
def Block.trainMsg (b : Block) (p : Nat) : PilotMsg :=
  let s := b.lstep p
  let l := b.lane p
  let fom := if 5 ≤ s && s ≤ 7 then b.rf (ln p 0x040) 15 0 else 0
  mkPilot 4 (put s 4 0 + put (b2n l.done) 1 4)
    [word ((l.lanes.zip l.adapt.codes).map fun (x, c) => put c 4 (4 * x.peerLane)).sum,
     word (put fom 16 32 + put l.heldTaps 16 16 + (l.lanes.mapIdx fun k x => put (l.adapt.down2 / 2 ^ k) 1 x.peerLane).sum)]

/-- The requests that a TRAIN has carried are taken to act on the peer's transmitters, and the program goes on (R390, R404). -/
def LaneSt.asksSent (l : LaneSt) : LaneSt :=
  if !l.adapt.due then l
  else
    let lanes := l.lanes.mapIdx fun k x => { x with far := (applyTap x.far (l.adapt.codes.getD k 0) (bitN l.adapt.down2 k)).1 }
    { l with lanes, adapt := l.adapt.sent lanes }

/-- The link-protocol versions that revision B1 supports: bits of versions 1 and 2 (R412). -/
def ownVersions : Nat := 3

/-- SEAM of this end (Table 10.9). -/
def Block.seamMsg (b : Block) (p : Nat) : PilotMsg :=
  let sl := b.peek wSeal
  mkPilot 6 0
    [word (put b.chipId 15 49 + put p 3 46 + put (b.ownModes p) 2 44 + put b.variant 4 40 + put (b.rf (regAt 0x01 0x818) 31 0) 32 0),
     word ownVersions, word (put (fld sl 63 49) 15 49), 0]

/-- IDLE messages that leave between two others (R385). -/
def Block.pilotIdles (b : Block) (p n : Nat) : Block :=
  b.pilotOut p (List.replicate n (mkPilot 0 0 []))

/-- The pilot sender's message of type `t`, where it is due now (Table 10.5); IDLE otherwise. -/
def Block.pilotSend (b : Block) (p t : Nat) : Block :=
  let q := b.port p
  let l := b.lane p
  let st := if b.testMode p == 0 then q.st else 0
  if !l.powered then b
  else if t == 3 then b.pilotOut p [mkPilot 3 (put st 4 0 + put q.cause 4 4) []]
  else if t == 4 && q.st == 1 then
    let b := b.pilotOut p [b.trainMsg p]
    (b.setLane p fun x => { x.asksSent with told := x.done }).advance p
  else if t == 5 && q.st == 1 && b.lstep p == 1 then b.pilotOut p [mkPilot 5 0 [word (b.ownCaps p)]]
  else if t == 6 && q.st == 2 then b.pilotOut p [b.seamMsg p]
  else if t == 7 then
    match l.result with
    | none => b.pilotOut p [mkPilot 0 0 []]
    | some r => b.pilotOut p [mkPilot 7 (put r 4 0 + put (b.rf (ln p 0x088) 59 52) 8 4) []]
  else b.pilotOut p [mkPilot 0 0 []]

/-- A LINK_STATE from the peer (R391, Table 10.7). -/
def Block.onLinkState (b : Block) (p : Nat) (m : PilotMsg) : Block :=
  let peer := fld (pmImm m) 3 0
  let st := (b.port p).st
  if st == 5 then (if peer == 4 || peer == 5 then b else b.toDown p 7)
  else if st == 4 then (if peer == 0 || peer == 1 || peer == 3 then b.toDown p 7 else b)
  else if (st == 1 || st == 2) && (peer == 0 || peer == 3) then b.startTraining p true
  else b

/-- A TRAIN from the peer (R390, R392, Table 10.7). A lower STEP is a restart of the peer, unless it only repeats that the
step before this one is done. -/
def Block.onTrain (b : Block) (p : Nat) (m : PilotMsg) : Block :=
  let st := (b.port p).st
  let step := fld (pmImm m) 3 0
  let done := bit (pmImm m) 4
  let own := if st == 2 then 8 else b.lstep p
  if st != 1 && st != 2 then b
  else if decide (step < own) && !(step + 1 == own && done) then b.startTraining p true
  else
    let reqs := (m.data.getD 0 0).toNat
    let down2 := fld (m.data.getD 1 0) 15 0
    let b := if st != 1 then b else
      let res := (b.lane p).lanes.mapIdx fun k x => applyTap x.taps (reqs / 16 ^ k % 16) (bitN down2 k)
      b.setLane p fun l => { l with
        lanes := (l.lanes.zip res).map fun (x, r) => { x with taps := r.1 },
        heldTaps := (res.mapIdx fun k r => if r.2 then 2 ^ k else 0).sum }
    (b.setLane p fun l => { l with peerStep := step, peerDone := done }).advance p

/-- CAPS of the peer (R393). -/
def Block.onCaps (b : Block) (p : Nat) (m : PilotMsg) : Block :=
  if (b.port p).st == 1 then b.setLane p fun l => { l with caps := some (fld (m.data.getD 0 0) 4 0) } else b

/-! ### Symbol lock (R384, R386, R367) -/

/-- Blocks that came at one boundary: where the last 64 of them have valid headers, symbol lock is gained (R384), in the polarity under
which a message among them passes its CRC; where none does yet, the polarity stays until a message decides it (R386). -/
def Block.pilotLocked (b : Block) (p : Nat) (m : List PilotBlock) : Block :=
  let last := m.drop (m.length - 64)
  if !(b.lane p).powered || b.pilotLock p || m.length < 64 || !(last.all headerOk) then b
  else
    let flip := if pilotFinds false m 0 then false else if pilotFinds true m 0 then true else bit (b.peek (ln p 0x040)) 55
    ((b.setLs p 56 56 1).setLs p 55 55 (b2n flip)).setLane p fun l =>
      { l with lossRunning := false, headers := last.map headerOk, pilotRx := pilotAfter m 0 }

/-- The lane has been out of lock for longer than PILOT_LOSS_US (Tables 9.9, 10.7). -/
def Block.pilotLossTimeout (b : Block) (p : Nat) : Block :=
  let st := (b.port p).st
  if b.pilotLock p || !(b.lane p).lossRunning then b
  else if st == 4 || st == 5 then b.toDown p 2
  else if st == 2 || (st == 1 && decide (2 ≤ b.lstep p)) then b.endTraining p 1
  else b

/-! ### Link delay (R409, R410) -/

/-- A DELAY_REQ leaves at `now`: one in flight at a time, the next once it is answered or 200 µs have passed. -/
def Block.delaySend (b : Block) (p now : Nat) : Block :=
  let l := b.lane p
  let waits := match l.t1 with
    | none => false
    | some (_, t) => decide (now < t + 3200000)
  if (b.port p).st != 2 || decide (256 ≤ l.flights.length) || waits then b
  else
    let b := b.clock now
    let k := l.asked % 256
    (b.pilotOut p [mkPilot 8 k []]).setLane p fun x => { x with asked := x.asked + 1, t1 := some (k, now) }

/-- A DELAY_REQ arrives at `t2`, and its answer leaves at `t3`. -/
def Block.onDelayReq (b : Block) (p : Nat) (m : PilotMsg) (t2 t3 : Nat) : Block :=
  let b := b.clock t3
  b.pilotOut p [mkPilot 9 (fld (pmImm m) 7 0) [word t2, word t3]]

/-- Extra of LINK over FLIGHT in 1/16 ns: 140 ns in E2, 75 ns in E1 (R410). -/
def linkExtra (mode : Nat) : Nat := if mode == 1 then 1200 else 2240

/-- TIME of this end, its control block leaving `after` now (Table 10.5). -/
def Block.timeMsg (b : Block) (after : Nat) : PilotMsg := mkPilot 2 (b.rf wTimeStatus 57 50) [word (b.time.now + after)]

/-- INIT is entered, or the port quarantined, once what R414 asks is known; TIME goes out once as INIT is entered (Table 10.5, R437). -/
def Block.trySeam (b : Block) (p : Nat) : Block :=
  let l := b.lane p
  let ver := b.rf (ln p 0x088) 59 52
  let old := b.fwd.pkts.any fun x => x.input == p && x.session != (b.port p).session && !x.killed && decide (x.left < 1 + x.data.length)
  if (b.port p).st != 2 then b
  else if (l.result.getD 0) != 0 || ((l.peerResult.map (·.1)).getD 0) != 0 then b.setLinkState p 3
  else match l.result with
    | none => b
    | some _ =>
      match l.peerResult with
        | none => b
        | some (_, pv) =>
          if pv != ver then b.setLinkState p 3
          else if old || decide (l.flights.length < 256) then b
          else
            let b := b.enterInit p l.mode ver
            (if b.rf wTimeStatus 63 63 == 1 then b.pilotOut p [b.timeMsg 0] else b).writeStarch p

/-- What R414 asks is looked at again on every port: a slot of an earlier session may have left its buffer; at every flit time
(DESIGN CHOICE, log entry 47). -/
def Block.seamAll (b : Block) : Block := (List.range 6).foldl Block.trySeam b

/-- This end's seam result, once the peer's SEAM and, for AGREED, the link delay are known (R413, R410). -/
def Block.seamResult (b : Block) (p : Nat) : Block :=
  let l := b.lane p
  if (b.port p).st != 2 || l.result.isSome then b.trySeam p
  else match l.seen with
    | none => b
    | some c =>
      if c == 0 && decide (l.flights.length < 256) then b
      else
        let r := if c != 0 then c else if 1600000 < b.rf (ln p 0x070) 31 0 then 7 else 0
        ((b.setLane p fun x => { x with result := some r, agreed := r == 0 }).setRf (ln p 0x088) 63 60 r).trySeam p

/-- A DELAY_RESP arrives at `t4`: one flight sample; after 256, FLIGHT, SPREAD and LINK (R410). -/
def Block.onDelayResp (b : Block) (p : Nat) (m : PilotMsg) (t4 : Nat) : Block :=
  let l := b.lane p
  match l.t1 with
  | none => b
  | some (k, t1) =>
    if (b.port p).st != 2 || fld (pmImm m) 7 0 != k then b
    else
      let b := b.clock t4
      let there := subMod 64 (m.data.getD 1 0).toNat (m.data.getD 0 0).toNat
      let fl := l.flights ++ [(t4 - t1) - there]
      let b := b.setLane p fun x => { x with t1 := none, flights := fl }
      if fl.length < 256 then b
      else
        let mean := fl.sum / 512
        let spread := (fl.foldl max 0 - fl.foldl min (fl.getD 0 0)) / 2
        let v := word (put 1 1 63 + put (min 0xFFFF spread) 16 32 + put (min 0xFFFFFFFF mean) 32 0)
        let b := b.poke (ln p 0x070) v
        (b.setRf (ln p 0x090) 31 0 (min 0xFFFFFFFF (mean + linkExtra l.mode))).seamResult p

/-! ### The seam check (R411 to R414) -/

/-- A SEAM of the peer: recorded, and the first line of Table 10.11 that applies, DELAY_RANGE apart. -/
def Block.onSeam (b : Block) (p : Nat) (m : PilotMsg) : Block :=
  if (b.port p).st != 2 then b
  else
    let d := fun (i : Nat) => m.data.getD i 0
    let (chip, port) := b.expected p
    let ver := bitLen 64 (ownVersions &&& (d 1).toNat)
    let code := if fld (d 2) 63 49 != fld (b.peek wSeal) 63 49 then 2
      else if fld (d 0) 63 49 != chip then 3
      else if fld (d 0) 48 46 != port then 4
      else if ver == 0 then 5
      else if ver == 1 && (b.lane p).mode == 2 then 6 else 0
    let b := ((b.poke (ln p 0x078) (d 0)).poke (ln p 0x080) (d 1)).setRf (ln p 0x088) 59 52 ver
    let b := b.setRf (ln p 0x088) 31 31 (fld (d 3) 63 63)
    (b.setLane p fun l => { l with seen := if l.seen.isSome then l.seen else some code }).seamResult p

/-- The peer's SEAM_RESULT (R414). -/
def Block.onSeamResult (b : Block) (p : Nat) (m : PilotMsg) : Block :=
  if (b.port p).st != 2 then b
  else (b.setLane p fun l => { l with peerResult := some (fld (pmImm m) 3 0, fld (pmImm m) 11 4) }).trySeam p

/-- No SEAM has come within 10 ms (Table 10.11). -/
def Block.noSeam (b : Block) (p : Nat) : Block :=
  if (b.port p).st != 2 || (b.lane p).seen.isSome then b
  else ((b.setLane p fun l => { l with result := some 1, agreed := false }).setRf (ln p 0x088) 63 60 1).trySeam p

/-! ### Requests on ports -/

/-- RETRAIN (R399, R408, Table 9.9). -/
def Block.retrain (b : Block) (p : Nat) : Block :=
  ((b.toDown p 8).setRf (ln p 0x098) 63 61 0).startTraining p false

/-- 1 µs in DOWN with AUTO_RETRAIN set (R364, R408). -/
def Block.autoRetrain (b : Block) (p : Nat) : Block :=
  if (b.port p).st == 0 && bit (b.peek (lk p 0x048)) 60 && b.testMode p == 0 then b.startTraining p false else b

/-- RELEASE of a quarantined port (R364). -/
def Block.release (b : Block) (p : Nat) : Block := if (b.port p).st == 3 then b.startTraining p false else b

/-- A BITSLIP written (R396): accepted in step 6 or in a loopback. -/
def Block.bitslipOk (b : Block) (p : Nat) (v : Word) : Bool :=
  let mode := b.testMode p
  let inLoop := 1 ≤ mode && mode ≤ 3
  (((b.port p).st == 1 && b.lstep p == 6) || inLoop) && decide (1 ≤ fld v 6 0) && decide (fld v 6 0 ≤ 64)

/-- The slips of a BITSLIP begin. -/
def Block.bitslip (b : Block) (p : Nat) (v : Word) : Block :=
  (b.setLane p fun l => { l with slip := some (fld v 11 8, fld v 6 0) }).setRf (ln p 0x068) 63 63 1

/-- A lane whose sampling a slip has delayed by `n` bits: its boundary has moved, and its marker is to be found again. -/
def LaneInfo.slipped (x : LaneInfo) (n : Nat) : LaneInfo := { x with off := x.off + n, run := 0, marker := false }

/-- The slips have been applied (R396): each delays the lane's sampling by one bit. -/
def Block.bitslipDone (b : Block) (p : Nat) : Block :=
  match (b.lane p).slip with
  | none => b
  | some (k, n) =>
    (b.setLane p fun l => { l with
      slip := none, lanes := l.lanes.modify k fun x => x.slipped n,
      rx := { l.rx with lanes := l.rx.lanes.modify k fun x => { x with drop := x.drop + n } } }).setRf (ln p 0x068) 63 63 0

/-- A power-up of a port is complete (R525): it proceeds from DOWN. -/
def Block.powerUpDone (b : Block) (p : Nat) : Block :=
  if !(b.lane p).powering then b
  else (b.setLane p fun l => { l with powered := true, powering := false }).setRf (regAt 0x01 0x850) (8 + p) (8 + p) 1

end Sys2Proof.Machine
end

