-- ==== Sys2Proof/Machine/Telemetry.lean ====
section
/-!
DEFINITION. Telemetry (§13.3) and the clear of the always-on counters (R486).
-/

namespace Sys2Proof.Machine

/-- An interval count, which holds all ones of its field when it is too large for it (R489). -/
def Block.iv (b : Block) (key width : Nat) : Nat := min (2 ^ width - 1) (Tbl.get 0 b.obs.iv key)

/-- Interval counts of a port summed over its classes: kind 0 slots sent, 1 slots received. -/
def Block.ivSlots (b : Block) (p kind : Nat) : Nat :=
  min (2 ^ 48 - 1) ((List.range 8).map fun c => Tbl.get 0 b.obs.iv (2 ^ 21 + pcKey p c kind)).sum

/-- KiB that a port's Hamper holds. -/
def Block.hamperKib (b : Block) (p : Nat) : Nat :=
  min (2 ^ 32 - 1) ((((b.hampered.filter fun x => x.2.out == p).map fun x => x.1.bytes).sum + 1023) / 1024)

/-- Bytes of a snapshot that may be written in a tick beside its header (R496): 5 % of the twelve channels' 128 bytes a cycle. -/
def Block.snapRate (b : Block) : Nat := 768 * b.tickCycles / 10000 - 64

/-- The part of the running snapshot that a tick allows (R496). -/
def Block.snapPiece (b : Block) : Block :=
  match b.obs.snap with
  | none => b
  | some r =>
    if r.rest.isEmpty then b
    else
      let n := b.snapRate
      ({ b with obs := { b.obs with snap := some { r with next := r.next + n, rest := r.rest.drop n } } }).hwrite true 0 r.next (r.rest.take n)
        .snapPart

/-- A part of a snapshot is written: after the last one comes the header, with the time now at the end (R495). -/
def Block.snapWritten (b : Block) : Block :=
  match b.obs.snap with
  | none => b
  | some r =>
    if !r.rest.isEmpty || b.host.jobs.any fun j => decide (j.kind = .snapPart) then b
    else ({ b with obs := { b.obs with snap := none } }).hwrite true 0 r.base (r.hdr.take 40 ++ toBytes 8 b.time.now ++ r.hdr.drop 48) .snapHead

/-- Whether some always-on counter has SATURATED set (R485). -/
def Block.anySaturated (b : Block) : Bool :=
  (b.regs.any fun x => bit x.2 48 && (x.1 % 512 == 3 || ((regDef x.1).map fun d => d.cnt).getD false)) || (b.obs.pc.any fun x => bit x.2 48)
    || (b.fold.ctrs.any fun x => x.2 == 2 ^ 48 - 1) || (b.lanes.any fun l => l.prbs.any fun x => bit x 48)

/-- Telemetry's four words of a port (Table 13.2). -/
def Block.telemPort (b : Block) (p : Nat) : List Word :=
  let q := b.port p
  [word (put q.st 4 60 + put q.mode 2 58 + put (b.ivSlots p 0) 48 0),
   word (b.ivSlots p 1),
   word (put (b.iv (lk p 0x098) 32) 32 32 + put (b.iv (lk p 0x0B8) 32) 32 0),
   word (put (b.hamperKib p) 32 32 + put (b.iv (ivDown p) 32) 32 0)]

/-- Telemetry's word of a host channel (Table 13.2): mean read latency in units of 8 ns. -/
def Block.telemChan (b : Block) (n : Nat) : Word :=
  let cnt := Tbl.get 0 b.obs.iv (ivLatN n)
  let mhz := max 1 (b.rf (regAt 0x01 0x840) 51 40)
  let lat := if cnt == 0 then 0 else Tbl.get 0 b.obs.iv (ivLatSum n) * 1000 / (cnt * mhz * 8)
  let kib := fun (w : Nat) => min (2 ^ 28 - 1) (Tbl.get 0 b.obs.iv (hc n w) / 8)
  word (put (kib 0x060) 28 36 + put (kib 0x068) 28 8 + put (min 255 lat) 8 0)

/-- The 64 words of a telemetry record (Table 13.2). -/
def Block.telemWords (b : Block) (phase : Nat) : List Word :=
  let o := b.obs
  let ts := b.peek wTimeStatus
  let poison := min (2 ^ 48 - 1) ((List.range 12).map fun e => Tbl.get 0 b.obs.iv (mg e 0x068)).sum
  let w := fun (hi lo : Nat) => word (put (b.iv hi 32) 32 32 + put (b.iv lo 32) 32 0)
  [word (put phase 1 63 + put b.chipId 15 48 + put 0x7E13 16 32 + put (min 0xFFFF o.telemLost) 16 16
      + put (min 0xFFFF (b.time.tick - o.sampleTick)) 16 0),
   word (put (b.rf (fo 0x130) 63 63) 1 63 + put (b2n o.sawHold) 1 62 + put (fld ts 63 63) 1 61 + put (b2n o.sawCrease) 1 60
      + put (b2n b.anySaturated) 1 59 + put (b2n o.sawDown) 1 58 + put b.time.tick 48 0),
   word b.time.edge,
   word (put (o.clkSum / max 1 o.samples) 16 48 + put (o.powSum / max 1 o.samples) 16 32 + put (fld ts 57 50) 8 24
      + put (fld ts 60 58) 3 21),
   word (put (b.time.corr % 2 ^ 32).toNat 32 32)]
  ++ (List.range 6).flatMap b.telemPort ++ (List.range 12).map b.telemChan
  ++ ([1, 2, 3, 4].map fun k => word (b.iv (pathCounter k) 48))
  ++ [word (put (b.rf wPatch0 11 0) 12 52 + put poison 48 0), w (fo 0x128) ivBehind, w (fo 0x120) (fo 0x118),
      word (b.iv ivCompleted 48), word (b.iv (cn 0x088) 48), word (b.iv (cn 0x090) 48),
      word (put (b.iv (sg 0x0A8) 16) 16 48 + put (b.iv (sg 0x0B0) 16) 16 32 + put (b.iv (sg 0x0B8) 16) 16 16
        + put (b.iv (sg 0x0C0) 16) 16 0),
      w ivBroken (rs 0x070), w (tr 0x078) (tr 0x080), w ivCaptured (tr 0x818), w ivErrors (fo 0x080)]
  ++ List.replicate 8 0

/-- What the correction under way has taken out by now (R478): a slew at most 64 ppm of the time passed, a half-rate run as much as that
time; a run that has taken all out ends, and edges before its end teach no period. -/
def Block.settleTime (b : Block) : Block :=
  let t := b.time
  let dt := t.now - t.slewAt
  let can := min t.slew.natAbs (if t.half then dt else dt * 64 / 1000000)
  let done : Int := if t.slew < 0 then -can else can
  let spent := t.half && decide (t.slew.natAbs ≤ can)
  { b with time := { t with corr := t.corr - done, slew := t.slew - done, slewAt := t.now, half := t.half && !spent,
                            lastTick := if spent then none else t.lastTick } }

/-- What held at any time of the interval, and the samples of clock and power, noted at an edge. -/
def Block.telemNote (b : Block) : Block :=
  let o := b.obs
  let note := { o with
    sawHold := o.sawHold || bit (b.peek wTimeStatus) 62, sawCrease := o.sawCrease || b.creased,
    sawDown := o.sawDown || b.rst.down, clkSum := o.clkSum + b.rf (regAt 0x01 0x840) 51 40,
    powSum := o.powSum + b.rf (regAt 0x01 0x848) 63 48, samples := o.samples + 1 }
  (List.range 6).foldl (fun b p => if (b.port p).st == 5 then b else b.ivAdd (ivDown p) 1) { b with obs := note }

/-- The sample of an edge whose index is a multiple of EVERY (R488 to R490); the interval counts start over. -/
def Block.telemetry (b : Block) : Block :=
  let c := b.peek (cn 0x058)
  let b := b.telemNote.settleTime
  if !(bit c 63) || b.time.tick % max 1 (fld c 47 32) != 0 then b
  else
    let put_ := b.ringFree (cn 0x050) (cn 0x058) && !b.rst.closed
    let b := if put_ then b.ringPutLast (cn 0x050) (cn 0x058) 512 0 false b.telemWords else b.bump (cn 0x098)
    { b with
      time := { b.time with corr := 0 },
      obs := { b.obs with iv := [], sampleTick := b.time.tick, telemLost := if put_ then 0 else b.obs.telemLost + 1,
                          sawHold := false, sawCrease := false, sawDown := false, clkSum := 0, powSum := 0, samples := 0 } }

/-- Whether a group of CTRS.CLEAR covers a page (R486): bit 0 LINK, 1 COMPUTE, 2 MGMT. -/
def clearGroup (mask_ page : Nat) : Bool :=
  (bitN mask_ 0 && (page == 3 || (decide (0x10 ≤ page) && decide (page ≤ 0x1D)) || page == 0x50 || page == 0x7C))
  || (bitN mask_ 1 && ((decide (0x20 ≤ page) && decide (page ≤ 0x40)) || page == 0x58 || page == 0x60 || page == 0x70))
  || (bitN mask_ 2 && (page == 0x78 || page == 0x7E || page == 0x7F))

/-- Whether a window word is an always-on counter that a clear of the groups `mask_` sets to zero (R485, R486). -/
def clearsWord (mask_ w : Nat) : Bool :=
  if w % 512 == 3 then bitN mask_ 3 else clearGroup mask_ (w / 512) && ((regDef w).map fun d => d.cnt).getD false

/-- The named groups clear at the edge after the write, after the edge's sample (R486). -/
def Block.counterClear (b : Block) : Block :=
  let m := b.obs.clearDue
  if m == 0 || b.time.tick == b.obs.clearTick || !b.onEdge then b
  else
    let lane16 := if bitN m 0 then b.lanes.map (fun l => { l with prbs := List.replicate 17 0 }) else b.lanes
    let ctrs := if bitN m 1 then [] else b.fold.ctrs
    let b := { b with regs := b.regs.filter fun x => !(clearsWord m x.1) }
    let b := { b with lanes := lane16, fold := { b.fold with ctrs }, obs := { b.obs with pc := if bitN m 0 then [] else b.obs.pc, clearDue := 0 } }
    b.setRf (cn 0x040) 63 63 0

end Sys2Proof.Machine
end

