-- ==== Sys2Proof/Machine/Time.lean ====
section
/-!
DEFINITION. Fabric time, the tick, and what the block does at its edges (§11.5, §13.1, §1.8, §14.1, §14.7).
-/

namespace Sys2Proof.Machine

/-! ### Reading and setting TIME.STATUS (Table 13.9) -/

/-- A field of TIME.STATUS set. -/
def Block.setTs (b : Block) (hi lo x : Nat) : Block := b.setRf wTimeStatus hi lo x

/-- A TIME event of the trace (Table 13.4). -/
def Block.timeEvent (b : Block) (kind : Nat) (corr : Int) : Block :=
  let p := b.ts 60 58
  b.trace 0x09 0 (if p < 6 then p else 7) kind (corr % 2 ^ 64).toNat

/-- Tick period in force, in 1/16 ns. -/
def Block.period (b : Block) : Nat := 16 * b.rf wPeriod 20 0

/-- TIME.TRIM of a port (Table 13.9). -/
def Block.trim (b : Block) (p : Nat) : Int :=
  if p < 4 then signed 16 (b.rf (regAt 3 0x068) (16 * p + 15) (16 * p)) else signed 16 (b.rf (regAt 3 0x070) (16 * (p - 4) + 15) (16 * (p - 4)))

/-- One-way delay of a port's pilot lane (R478). -/
def Block.pilotDelay (b : Block) (p : Nat) : Int := (b.rf (ln p 0x070) 31 0 : Int) + b.trim p / 2

/-- Whether tick and time may be taken from a port (R389). -/
def Block.timeOk (b : Block) (p : Nat) : Bool := decide (p < 6) && b.pilotOn p && (b.lane p).agreed && (b.port p).st != 3

/-- Whether a port qualifies as time parent (R438, R480): DELAY.VALID too, and TIME from a locked peer. -/
def Block.qualifies (b : Block) (p : Nat) : Bool :=
  b.timeOk p && bit (b.peek (ln p 0x070)) 63 && decide (b.time.hops.getD p 255 < 255)

/-- The port that R438 chooses: the fewest hops, the lowest number on a tie. -/
def Block.bestParent (b : Block) : Option Nat :=
  ((List.range 6).filter b.qualifies).foldl (fun (m : Option Nat) p =>
    match m with
    | none => some p
    | some q => if b.time.hops.getD p 255 < b.time.hops.getD q 255 then some p else m) none

/-! ### Master, parent, holdover (R436, R480, R481) -/

/-- Holdover of now noted for the telemetry record: it reports holdover at any time in the interval (Table 13.2). -/
def Block.seeHold (b : Block) : Block :=
  { b with obs := { b.obs with sawHold := b.obs.sawHold || bit (b.peek wTimeStatus) 62 } }

/-- The chip acts as tick master: no parent, HOPS 0, its time goes on (R436, R481). -/
def Block.takeMaster (b : Block) : Block :=
  if b.isMaster then b
  else
    let b := ((((b.seeHold.setTs 63 63 1).setTs 62 62 0).setTs 61 61 1).setTs 60 58 6).settleTime
    let b := { b.setTs 57 50 0 with
      time := { b.time with waiting := false, timeSet := false, missed := 0, fresh := true, slew := 0, half := false } }
    b.timeEvent 6 0

/-- A parent taken in place of another (R480). -/
def Block.takeParent (b : Block) (p : Nat) : Block :=
  let hold := b.ts 62 62 == 1
  let b := (((b.seeHold.setTs 62 62 0).setTs 60 58 p).setTs 57 50 (min 255 (b.time.hops.getD p 255 + 1))).settleTime
  let b := { b.bump (regAt 3 0x088) with time := { b.time with missed := 0, lastTick := none, slew := 0, half := false } }
  b.timeEvent (if hold then 5 else 2) 0

/-- The chip is without a parent: another one, the master role back, or holdover (R480, R481). -/
def Block.noParent (b : Block) : Block :=
  match b.bestParent with
  | some p => b.takeParent p
  | none =>
    if b.ts 49 49 == 1 then (b.setTs 49 49 0).takeMaster
    else
      let b := (((b.setTs 62 62 1).setTs 60 58 7).setTs 57 50 255).seeHold.settleTime
      ({ b with time := { b.time with missed := 0, lastTick := none, slew := 0, half := false } }.bump (regAt 3 0x080)).timeEvent 4 0

/-- The master role follows the seal and BECOME_MASTER (R481); before a lock only the seal's master or BECOME_MASTER
locks the chip at once (R436). -/
def Block.masterCheck (b : Block) : Block :=
  let sealed := b.rf wSealLeft 63 63 == 1 && b.rf wSeal 48 34 == b.chipId && b.ts 49 49 == 0 && !b.time.waiting
  let want := sealed || b.rf (regAt 3 0x060) 63 63 == 1
  if want then b.takeMaster
  else if b.isMaster then ((b.setTs 61 61 0).timeEvent 7 0).noParent
  else b

/-- What a seal does to the tick (R436, R481): it clears YIELDED. -/
def Block.sealTime (b : Block) : Block := (b.setTs 49 49 0).masterCheck

/-- Whether a port has settled since step 6 began (R418); one held in DOWN for its replay buffer never trains and is not waited
for (DEDUCED, log entry 33). -/
def Block.settled (b : Block) (p : Nat) : Bool := b.axisLen (p / 2) == 1 || bitN b.boot.reached p || bitN b.boot.portFailed p

/-- 10 ms have passed since the seam checks ended, every port having settled, without TIME from a locked peer: the sealed master locks
from its seal (R468). -/
def Block.masterWaitEnd (b : Block) : Block :=
  if !b.time.waiting || b.locked || b.bootStage < 6 || !((List.range 6).all b.settled) then b else ({ b with time := { b.time with waiting := false } }).masterCheck

/-- The parent is lost (R480): its pilot lane is out of lock, its seam result is no longer AGREED, or `missed` says that
two consecutive TICKs have failed to arrive. -/
def Block.parentLoss (b : Block) (missed : Bool) : Block :=
  let p := b.ts 60 58
  if !b.locked || b.isMaster || decide (6 ≤ p) || (b.timeOk p && !missed) then b
  else ({ b with time := { b.time with hops := b.time.hops.set p 255 } }).noParent

/-! ### Corrections (R478) -/

/-- A difference from the parent, positive where this chip is ahead, corrected as R478 gives: a step already due is not counted again, and
a half-rate run goes on until nothing is left. -/
def Block.correct (b : Block) (diff : Int) : Block :=
  let b := b.settleTime
  let left := fun (h : Bool) (b : Block) => { b with time := { b.time with slew := diff, half := h } }
  if diff ≤ -1024 then
    let first := b.time.stepDue == 0
    let b := { b with time := { b.time with stepDue := diff.natAbs, slew := 0, half := false } }
    if first then (b.bump (regAt 3 0x078)).timeEvent 3 (-diff) else b
  else if b.time.stepDue != 0 then b
  else if diff < 1024 then left (b.time.half && decide (0 < diff)) b
  else if b.time.half then left true b
  else ((left true b).bump (regAt 3 0x078)).timeEvent 3 (-diff)

/-- The period that the spacing of the parent's recovered edges gives (R482), where it is a legal one. Edges recovered during a half-rate
run are not compared: this chip's time between them is not the parent's. -/
def Block.learnPeriod (b : Block) (edge k : Nat) : Block :=
  let b' := { b with time := { b.time with lastTick := if b.time.half then none else some (edge, k) } }
  match b.time.lastTick with
  | none => b'
  | some (e0, k0) =>
    if b.time.half || k ≤ k0 || edge ≤ e0 then b'
    else
      let ns := ((edge - e0) / (k - k0) + 512) / 1024 * 64
      if 512 ≤ ns && ns ≤ 1048576 then b'.setRf wPeriod 20 0 ns else b'

/-- A TICK of the parent that arrives at `now` (R388, R438, R478). A crease whose index passed while the chip was not
locked never takes place (Table 13.7). -/
def Block.onTick (b : Block) (p : Nat) (m : PilotMsg) (now : Nat) : Block :=
  if !(b.timeOk p) || b.ts 60 58 != p || b.isMaster then b
  else
    let b := { b with time := { b.time with missed := 0 } }.clock now
    let edge := ((now : Int) - fld (pmImm m) 11 0 - b.pilotDelay p).toNat
    let k := fld (m.data.getD 0 0) 47 0
    let b := b.learnPeriod edge k
    if !b.locked then
      if !b.time.timeSet then b
      else
        let b := { b.setTs 63 63 1 with time := { b.time with tick := k, edge, aligned := true, timeSet := false, fresh := true, skip := 0 } }
        let b := if b.rf (regAt 0x7F 0x050) 63 63 == 1 && decide (b.rf (regAt 0x7F 0x050) 47 0 ≤ k) then b.setRf (regAt 0x7F 0x050) 63 63 0 else b
        let b := b.timeEvent 1 0
        if b.time.waiting then ({ b with time := { b.time with waiting := false } }).masterCheck else b
    else if !b.time.aligned then b
    else
      let own : Int := (b.time.edge : Int) + ((k : Int) - b.time.tick) * b.period
      let diff : Int := (edge : Int) - own
      (b.setTs 31 0 (diff % 2 ^ 32).toNat).correct diff

/-- A TIME that arrives at `now` (R438, R478, R480, R481). -/
def Block.onTime (b : Block) (p : Nat) (m : PilotMsg) (now : Nat) : Block :=
  if !(b.timeOk p) then b
  else
    let hops := fld (pmImm m) 7 0
    let peer := fld (b.peek (ln p 0x078)) 63 49
    let data := (m.data.getD 0 0).toNat
    let b := { b with time := { b.time with hops := b.time.hops.set p hops } }.clock now
    if b.isMaster then
      if hops == 0 && decide (peer < b.chipId) then
        let b := ((b.setTs 61 61 0).setRf (regAt 3 0x060) 63 63 0).timeEvent 7 0
        let b := if b.rf wSeal 48 34 == b.chipId then b.setTs 49 49 1 else b
        b.takeParent p
      else b
    else if !b.locked then
      match b.bestParent with
      | none => b
      | some q =>
        if b.ts 60 58 != q then { b.setTs 60 58 q with time := { b.time with timeSet := false, lastTick := none } }
        else if q != p then b
        else
          let t : Nat := (data + b.rf (ln p 0x070) 31 0) % 2 ^ 64
          let rel := b.time.release + ((t : Int) - b.time.now)
          { b.setTs 57 50 (min 255 (hops + 1)) with
            time := { b.time with now := t, atEdge := false, timeSet := true, aligned := false, release := rel, slew := 0, slewAt := t,
                                  half := false, stepDue := 0, lastTick := none } }
    else if b.ts 62 62 == 1 then
      match b.bestParent with
      | none => b
      | some q => b.takeParent q
    else if b.ts 60 58 == p then
      let b := b.setTs 57 50 (min 255 (hops + 1))
      let diff : Int := (now : Int) - b.pilotDelay p - data
      if b.period ≤ 2 * diff.natAbs then b.correct diff else b
    else b

/-! ### Clock, power and heat at an edge (R445, R509, R526) -/

def wClock : Nat := regAt 0x01 0x840
def wPower : Nat := regAt 0x01 0x848
def wThermal : Nat := regAt 0x01 0x858

/-- The power rule of R445 with this tick's estimate in 0.1 W: the mean of the last 64, and the clock it allows. -/
def Block.powerRule (b : Block) (power : Nat) : Block :=
  let ps := (power :: b.boot.powers).take 64
  let mean := ps.sum / ps.length
  let cap := b.rf wPower 47 32
  let below := if mean + 40 < cap then b.boot.below + 1 else 0
  let (mhz, below) :=
    if cap < mean then (max 1200 (b.rf wClock 51 40 - 100), 0)
    else if 1024 ≤ below then (min b.fusedMhz (b.boot.capMhz + 100), 0)
    else (b.boot.capMhz, below)
  { b.setRf wPower 63 48 mean with boot := { b.boot with powers := ps, below, capMhz := mhz } }

/-- The clock that the thermal rule allows (R526): between its two limits it allows the clock in use. -/
def Block.thermalMhz (b : Block) : Nat :=
  let t := signed 16 (b.rf wThermal 63 48)
  let lim : Int := 8 * b.rf wThermal 47 40
  if lim ≤ t then b.rf wClock 51 40 - 100 else if t ≤ lim - 40 then b.fusedMhz else b.rf wClock 51 40

/-- 110 °C reached: TRIPPED, and THERMTRIP_N is driven low (R527). -/
def Block.thermtrip (b : Block) : Block := { b.setRf wThermal 30 30 1 with boot := { b.boot with thermLow := true } }

/-- The target clock, LIMITED_BY, and one step of FABCLK towards the target, never below 1,200 MHz; a sensor at 110 °C trips (R508, R509,
R527). -/
def Block.clockRule (b : Block) (temp power : Nat) : Block :=
  let b := (b.setRf wThermal 63 48 temp).powerRule power
  let b := if 880 ≤ signed 16 (b.rf wThermal 63 48) then b.thermtrip else b
  let req := b.rf wClock 63 52
  let cap := b.boot.capMhz
  let th := b.thermalMhz
  let fused := b.fusedMhz
  let least := min (min req fused) (min cap th)
  let by_ := if least == fused then (if fused < req then 2 else 0)
    else if req == least then 1 else if cap == least then 3 else 4
  let target := max 1200 least
  let cur := b.rf wClock 51 40
  let next := if cur < target then cur + min 100 (target - cur) else cur - min 100 (cur - target)
  ((b.setRf wClock 51 40 next).setRf wClock 39 36 by_).setRf wThermal 31 31 (b2n (by_ == 4))

/-! ### The edge (R37, R477) -/

/-- Committed packets without credit at an edge, counted lane by lane (R301). -/
def Block.starve (b : Block) : Block :=
  (List.range 6).foldl (fun b p => (List.range 16).foldl (fun b l =>
    let key := 16 * p + l
    let n := match b.committed p l with
      | none => 0
      | some (_, y) =>
        if (b.port p).credit (laneCtr l + b2n (y.sent != 0)) then 0 else Tbl.get 0 b.fwd.starved key + 1
    { b with fwd := { b.fwd with starved := Tbl.set 0 b.fwd.starved key n } }) b) b

/-- Mean read latency of each channel over the tick that ends (Table 7.12). -/
def Block.latencyMeans (b : Block) : Block :=
  let upd := fun (l : Lat) => ({ mean := if l.n == 0 then 0 else l.sum / l.n } : Lat)
  { b with host := { b.host with lat := b.host.lat.map upd } }

/-- Length of a TICK message, two blocks of 2.56 ns, in 1/16 ns rounded down (R383, Table 10.5). -/
def tickLen : Nat := 81

/-- TICK on every powered port, OFFSET of each after the edge, and behind it TIME every 64 tick periods and after a lock, with the time at
which its own control block leaves (R388, R438, Table 10.5). -/
def Block.sendTick (b : Block) (offsets : List Nat) : Block :=
  let all := b.time.tick % 64 == 0
  let b := (List.range 6).foldl (fun b p =>
    let off := min 368 (offsets.getD p 0)
    let tick := mkPilot 1 off [word (b.time.tick % 2 ^ 48)]
    b.pilotOut p (if all || (b.time.fresh && decide (4 ≤ (b.port p).st)) then [tick, b.timeMsg (off + tickLen)] else [tick])) b
  { b with time := { b.time with fresh := false } }

/-- Counts of an edge: consecutive edges with nothing to drain, and the records of one tick. -/
def Block.edgeCounts (b : Block) : Block :=
  let z := if b.fwd.other == 2 && b.drainCount == 0 then b.fwd.zeroEdges + 1 else 0
  { b with fwd := { b.fwd with zeroEdges := z, capCount := 0 }, obs := { b.obs with trCount := 0 } }

/-- The edge itself: index and fabric time move on, a period written since takes effect, a step forward is taken (R38,
R477, R478). A master's first edge has index 0 and stands where `now` puts it (R436). -/
def Block.moveEdge (b : Block) (now : Nat) : Block :=
  let t := b.time
  let t := if t.aligned then
      { t with tick := (t.tick + 1 + t.skip) % 2 ^ 48, edge := t.edge + (1 + t.skip) * b.period, skip := 0 }
    else { t with edge := max t.now now, aligned := true, skip := 0 }
  let per := match t.periodDue with
    | none => b.period
    | some ns => 16 * ns
  let t := { t with
    now := max t.now t.edge + t.stepDue, atEdge := true, skip := t.stepDue / max 1 per, stepDue := 0, corr := t.corr + t.stepDue,
    slewAt := t.slewAt + t.stepDue, lastTick := t.lastTick.map fun x => (x.1 + t.stepDue, x.2) }
  let b := { b with time := t }.stalls b.time.now
  match t.periodDue with
  | none => b
  | some ns => { b.setRf wPeriod 20 0 ns with time := { t with periodDue := none } }

/-- TICK_EDGE: hottest sensor in 1/8 °C, this tick's power estimate in 0.1 W, OFFSET of each port's TICK message. -/
def Block.tickEdge (b : Block) (now temp power : Nat) (offsets : List Nat) : Block :=
  if !b.ticks then b
  else (((((((b.moveEdge now).clockRule temp power).grantBudgets).starve).edgeCounts.latencyMeans).telemetry).snapPiece).sendTick offsets

/-! ### Writes of TIME (R481, R482) -/

/-- Whether a value of TIME.PERIOD is legal (Table 13.9). -/
def periodOk (ns : Nat) : Bool := ns % 64 == 0 && decide (512 ≤ ns) && decide (ns ≤ 1048576)

end Sys2Proof.Machine
end

