-- ==== Sys2Proof/Machine/HostDone.lean ====
section
/-!
DEFINITION. Answers of the host die (§7.2 to §7.4): beats checked, transactions ended, and what follows each access; and
what follows a Mangle unit.
-/

namespace Sys2Proof.Machine

/-- The transaction that a channel and tag name, the host having taken every transfer of it. -/
def Block.txn? (b : Block) (ch tag : Nat) : Option Txn := b.host.out.find? fun t => t.chan == ch && t.tag == tag && t.sent

/-- A transaction changed, and one removed: its tag and its buffer beats are free. -/
def Block.setTxn (b : Block) (ch tag : Nat) (f : Txn → Txn) : Block :=
  { b with host := { b.host with out := b.host.out.map fun t => if t.chan == ch && t.tag == tag then f t else t } }
def Block.dropTxn (b : Block) (ch tag : Nat) : Block :=
  { b with host := { b.host with out := b.host.out.filter fun t => !(t.chan == ch && t.tag == tag) } }

/-- An image read at `addr` has returned its header or its body (R212, R425): bytes so far, whether it is all here, and
the bytes still to read. LENGTH outside its range asks for no body. -/
def imagePart (have_ data : List Byte) (body : Bool) : List Byte × Option Nat :=
  if body then (have_ ++ data, none)
  else
    let len := ofBytes (slice data 8 4)
    (data, if len % 4 == 0 && decide (4 ≤ len) && decide (len ≤ 1048576) then some len else none)

/-- Base of an engine's microcode image (Table 5.13). -/
def Block.ucBase (b : Block) (e : Nat) : Nat := b.rf (mg e 0x078) 51 12 * 4096

/-- Base of the firmware image (Table 11.7). -/
def Block.fwBase (b : Block) : Nat := b.rf (regAt 0x01 0x808) 51 12 * 4096

/-- A part of the firmware image has been read (R426, R427). -/
def Block.fwPart (b : Block) (body : Bool) (data : List Byte) (bad : Bool) : Block :=
  if bad then { b with boot := { b.boot with imageBad := true, imageRead := true } }
  else
    let (img, more) := imagePart b.boot.image data body
    let b := { b with boot := { b.boot with image := img, imageRead := more.isNone } }
    match more with
    | none => b
    | some n => b.hread true 0 (b.fwBase + 512) n (.fwImage true)

/-- A part of a microcode image has been read (R212). -/
def Block.ucPart (b : Block) (e : Nat) (body : Bool) (data : List Byte) (bad : Bool) : Block :=
  if bad then b.setEngine e fun g => { g with imageBad := true, imageRead := true }
  else
    let (img, more) := imagePart (b.engine e).image data body
    let b := b.setEngine e fun g => { g with image := img, imageRead := more.isNone }
    match more with
    | none => b
    | some n => b.hread true 0 (b.ucBase e + 512) n (.ucImage e true)

/-- A local landing of response data, or a residual write, has been accepted or has failed (R108, R115, R142). A packet `k` whose
landing failed counts once in FAIL_COUNT; BYTES_OK keeps what its OK response covered (R117; DESIGN CHOICE, log entry 73). -/
def Block.landedLocal (b : Block) (cmd ctr n : Nat) (k : Option Nat) (bad : Bool) : Block :=
  match b.cmd? cmd with
  | none => b
  | some _ =>
    let b := if bad then b else b.ctrAdvance ctr n
    (b.setCmd cmd fun c =>
      let c := { c with lands := c.lands - 1 }
      if !bad then c
      else match k with
        | none => c.meet stPOISON 0 b.chipId
        | some i => (c.meet stPOISON 0 b.chipId).fail i).reqPump

/-- A mirror write that was not accepted is owed again (R157, R176). -/
def Block.mirrorAgain (b : Block) (n id : Nat) : Block :=
  { b with mirrorDue := if b.mirrorDue.contains n then b.mirrorDue else b.mirrorDue ++ [n],
           ctrFence := b.ctrFence.map fun x => if x == 65536 + id then n else x }

/-- What follows an access once every transaction of it is answered. -/
def Block.finishJob (b : Block) (j : Job) : Block :=
  let data := ((List.range j.parts.length).map fun i => ((j.parts.find? fun x => x.1 == i).map (·.2)).getD []).flatten
  match j.kind with
  | .record => b
  | .lasting => b
  | .ringPart trace rest => b.ringNext trace rest
  | .areaBody addr hdr => (if j.bad then b.setRf (rs 0x068) 45 45 1 else b).hwrite true 0 addr hdr .dump
  | .snapPart => b.snapWritten
  | .snapHead => b.setRf (db 0x048) 63 63 1
  | .streamEntry s gen => b.entryRead s gen data j.bad
  | .descriptors s q _ gen => b.descRead s q gen data j.bad
  | .source cmd pk part => b.sourceRead cmd pk part false data j.bad
  | .residual cmd pk part => b.sourceRead cmd pk part true data j.bad
  | .residualWrite cmd => b.landedLocal cmd 0 0 none j.bad
  | .land id => b.pktDone id (if j.bad then stPOISON else 0) 0
  | .load id => b.answered id data j.bad
  | .reduceRead id => b.reduceReady id data j.bad
  | .atomic id => b.answered id data j.bad
  | .localLand cmd ctr n k => b.landedLocal cmd ctr n (some k) j.bad
  | .foldArgs s => b.foldArgs s data j.bad
  | .foldIndex s ins part => b.gatherRows s ins part data j.bad
  | .passRead s pk i => b.passOperand s pk (some i) data j.bad
  | .passAhead cmd a => b.passAheadDone cmd a data j.bad
  | .passLand cmd ctr n span k keep => b.passLanded cmd ctr n span k keep j.bad
  | .passSpill s pk => b.passOperand s pk none data j.bad
  | .mirror n => if j.bad then b.mirrorAgain n j.id else b
  | .replayRead p seq tag => b.replayBack p seq tag data j.bad
  | .hamperRead pk out => b.hamperBack pk out data j.bad
  | .fwImage body => b.fwPart body data j.bad
  | .ucImage e body => b.ucPart e body data j.bad
  | .dump =>
    let b := if j.bad then b.setRf (rs 0x068) 45 45 1 else b
    if b.rf (rs 0x048) 63 60 == 2 then b.setRf (rs 0x048) 63 60 3 else b

/-- One transaction of an access answered: its data, or that it was bad; the last one ends the access. -/
def Block.partDone (b : Block) (t : Txn) (data : List Byte) (bad : Bool) : Block :=
  match b.host.jobs.find? fun j => j.id == t.job with
  | none => b
  | some j =>
    let j := { j with left := j.left - 1, parts := j.parts ++ [(t.part, data)], bad := j.bad || bad }
    if j.left != 0 then
      { b with host := { b.host with jobs := b.host.jobs.map fun x => if x.id == j.id then j else x } }
    else
      let b := { b with host := { b.host with jobs := b.host.jobs.filter fun x => x.id != j.id } }
      b.finishJob j

/-- Without a dump to write, PHASE goes on to the drain (Table 12.12). -/
def Block.drainStep (b : Block) : Block :=
  if b.rf (rs 0x048) 63 60 == 2 && b.rst.draining && !(b.host.jobs.any fun j => b.isDump j.id) then b.setRf (rs 0x048) 63 60 3 else b

/-- After an answer: units that can start do, transactions that can go do, and what was covered is noted. -/
def Block.afterHost (b : Block) : Block := b.dispatchAll.hostPump.reqPump.covers.drainStep

/-- Bytes of an access that fall in transaction `t`: where they start in its data and how many they are. -/
def Txn.wanted (t : Txn) : Nat × Nat := (t.wstart - t.addr, t.wlen)

/-- The checks of R264 and R266 on beat `beat`: counted by cause; true where a word that holds bytes `lo` to `lo + n` of the
transaction is bad. -/
def Block.checkBeat (b : Block) (ch tag beat lo n : Nat) (words : List HostWord) : Block × Bool :=
  (words.mapIdx fun w x => (w, x)).foldl (fun (acc : Block × Bool) (w, x) =>
    let b := acc.1
    let wrong := x.tag.toNat != dataTag tag beat w
    let poison := x.darn = .bad || x.poison
    let b := if x.darn = .corrected then b.bump (hc ch 0x070) else b
    let b := if poison then b.bump (hc ch 0x078) else b
    let b := if wrong then b.bump (hc ch 0x080) else b
    let at_ := 128 * beat + 32 * w
    (b, acc.2 || ((wrong || poison) && decide (at_ < lo + n) && decide (lo < at_ + 32)))) (b, false)

/-- A response header is checked first (R266): true where the response is to be taken. -/
def Block.checkHeader (b : Block) (ch : Nat) (hdr : Darn) : Block × Bool :=
  match hdr with
  | .good => (b, true)
  | .corrected => (b.bump (hc ch 0x070), true)
  | .bad => (b.bump (hc ch 0x080), false)

/-- A response after a timeout: discarded and counted, and its tag is free (R267). -/
def Block.lateResponse (b : Block) (ch tag : Nat) (whole : Bool) : Block :=
  let b := b.bump (hc ch 0x098)
  (if whole then b.dropTxn ch tag else b).hostPump.reqPump

/-- Latency of a read's first beat (Table 7.12). -/
def Block.latency (b : Block) (ch cycles : Nat) : Block :=
  let b := { b with host := { b.host with lat := b.host.lat.modify ch fun l => { l with sum := l.sum + cycles, n := l.n + 1 } } }
  ((b.setRf (hc ch 0x0A0) 31 0 (max (b.rf (hc ch 0x0A0) 31 0) cycles)).ivAdd (ivLatSum ch) cycles).ivAdd (ivLatN ch) 1

/-- The bytes of a beat. -/
def beatBytes (words : List HostWord) : List Byte := ((List.range 4).map fun w => toBytes 32 (((words.drop w).head?.map fun x => x.data.toNat).getD 0)).flatten

/-- Data of a read, its beats in order. -/
def Txn.readData (t : Txn) : List Byte :=
  ((List.range t.beats).map fun i => ((t.got.find? fun x => x.1 == i).map (·.2)).getD []).flatten

/-- RDATA: beat `beat` of a read; once every beat is here the read is answered (R260, R264, R266). One whose header fails its check
is lost, and its read is left to the timeout. -/
def Block.rdata (b : Block) (ch status tag beat : Nat) (hdr : Darn) (words : List HostWord) (cycles : Nat) : Block :=
  let (b, ok) := b.checkHeader ch hdr
  if !ok then b else
  match b.txn? ch tag with
  | none => b
  | some t =>
    if t.kind ≠ .rd then b
    else
      let b := b.bump (hc ch 0x060)
      if t.dead then (if beat + 1 == t.beats then b.lateResponse ch tag true else b)
      else
        let b := if t.got.isEmpty then b.latency ch cycles else b
        let (lo, n) := t.wanted
        let (b, wordBad) := b.checkBeat ch tag beat lo n words
        let b := if status != 0 && !t.erred then b.bump (hc ch 0x088) else b
        let t := { t with got := t.got ++ [(beat, beatBytes words)], bad := t.bad || wordBad || status != 0, erred := t.erred || status != 0 }
        if t.got.length < t.beats then b.setTxn ch tag fun _ => t
        else ((b.dropTxn ch tag).partDone t (slice t.readData lo n) t.bad).afterHost

/-- The counter that an access advances once it is accepted (R115, R152). -/
def Block.jobCtr (b : Block) (t : Txn) : Nat :=
  match b.host.jobs.find? fun j => j.id == t.job with
  | none => 0
  | some j => match j.kind with
    | .land id => ((b.pkt? id).map (·.ctr)).getD 0
    | .localLand _ ctr _ _ => ctr
    | .passLand _ ctr _ _ _ _ => ctr
    | _ => 0

/-- The locks of a range are released once its UNLOCK has been answered (R263, R272). -/
def Block.unlocked (b : Block) (t : Txn) : Block :=
  if t.unlock then
    { b with host := { b.host with locks := b.host.locks.filter fun l => !(decide (t.wstart ≤ l.addr) && decide (l.addr < t.wstart + t.wlen)) } }
  else b

/-- WACK: a write has been accepted, or refused (R260, R266). `ctr` is what the check of the counter that it advances finds (R159). -/
def Block.wack (b : Block) (ch status tag : Nat) (hdr ctr : Darn) : Block :=
  let (b, ok) := b.checkHeader ch hdr
  if !ok then b else
  match b.txn? ch tag with
  | none => b
  | some t =>
    if t.kind ≠ .wr then b
    else if t.dead then (b.unlocked t).lateResponse ch tag true
    else
      let b := if status != 0 then b.bump (hc ch 0x088) else b
      let b := if b.jobCtr t == 0 then b else b.ctrFind (b.jobCtr t) ctr
      (((b.unlocked t).dropTxn ch tag).partDone t [] (status != 0)).afterHost

/-- ADATA: an atomic's old value, in bytes 0 to 7, or 0 to 15 of an AT16 (R260). -/
def Block.adata (b : Block) (ch status tag : Nat) (hdr : Darn) (words : List HostWord) : Block :=
  let (b, ok) := b.checkHeader ch hdr
  if !ok then b else
  match b.txn? ch tag with
  | none => b
  | some t =>
    if t.kind = .rd || t.kind = .wr then b
    else if t.dead then b.lateResponse ch tag true
    else
      let n := if t.kind = .at16 then 16 else 8
      let (b, wordBad) := b.checkBeat ch tag 0 0 n words
      let b := if status != 0 then b.bump (hc ch 0x088) else b
      let data := (beatBytes words).take n
      ((b.dropTxn ch tag).partDone t (if n == 8 then data ++ List.replicate 8 (0 : Byte) else data) (wordBad || status != 0)).afterHost

/-- HC0.TIMEOUT in units of 1/16 ns, clamped to 1 to 1,000,000 µs (Table 7.13). -/
def Block.hostLimit (b : Block) : Nat := 16000 * max 1 (min 1000000 (b.rf (hc 0 0x830) 19 0))

/-- HC0.TIMEOUT has passed since its transfer without an answer (R267): the transaction ends with POISON, its tag stays in use. -/
def Block.hostTimeout (b : Block) (ch tag : Nat) : Block :=
  match b.txn? ch tag with
  | none => b
  | some t =>
    if t.dead || b.time.now < t.start + b.hostLimit then b
    else (((b.bump (hc ch 0x090)).setTxn ch tag fun x => { x with dead := true }).partDone t [] true).afterHost

/-- An engine has done with its unit (R179, R180): what it wrote leaves, or it ends with POISON; the engine takes its next
unit. -/
def Block.unitDone (b : Block) (e : Nat) (bad : Bool) : Block :=
  match (b.engine e).held with
  | none => b
  | some h =>
    let bad := bad || h.unit.bad
    let b := (b.setEngine e fun g => { g with held := none }).countUnit e h bad
    let b := match h.unit.kind with
      | .reduce id => b.reduceDone id h.landed bad
      | .pass cmd pk => b.passDone cmd pk h bad
      | .wring cmd pk => b.wringDone cmd pk h bad
    b.dispatchAll.covers

end Sys2Proof.Machine
end

