-- ==== Sys2Proof/Machine/Dump.lean ====
section
/-!
DEFINITION. The records of a dump and of a snapshot, and how they are laid out and written (§12.4, §13.5).
-/

namespace Sys2Proof.Machine

/-! ### Layout (R471, Table 12.6) -/

/-- A section: its TYPE, the bytes of a record, and its records as words. -/
structure Section where
  type : Nat
  bytes : Nat
  recs : List (List Word)
  deriving DecidableEq, Repr

/-- Records that fit into `room` bytes, section by section, and how many of each are left out (R471, R497). -/
def fitSections : Nat → List Section → List (Section × Nat)
  | _, [] => []
  | room, s :: t =>
    let k := min s.recs.length (room / s.bytes)
    ({ s with recs := s.recs.take k }, s.recs.length - k) :: fitSections (room - k * s.bytes) t

/-- A record filled with zeros to its size. -/
def padRec (bytes : Nat) (ws : List Word) : List Word := (ws ++ List.replicate (bytes / 8) 0).take (bytes / 8)

/-- A section as it is written: its header, then its records. -/
def sectionWords (x : Section × Nat) : List Word :=
  [word (put x.1.type 8 56 + put x.1.bytes 16 40 + put x.1.recs.length 20 20), word x.2]
  ++ x.1.recs.flatMap (padRec x.1.bytes)

/-- What the header of a dump or snapshot says (Table 12.6, R495). -/
structure DumpHead where
  kind : Nat
  cause : Nat
  engine : Nat := 0
  ctx : Nat := 0
  gen : Nat
  /-- Header words 4 and 5: fabric time at the start and at the end of a snapshot. -/
  from_ : Nat := 0
  to_ : Nat := 0
  deriving DecidableEq, Repr

/-- The header's bytes (Table 12.6). -/
def DumpHead.bytes (h : DumpHead) (chip tick sections bytes : Nat) (cut : Bool) : List Byte :=
  wordsBytes [word (put 0xD1A6 16 48 + put 1 8 40 + put h.kind 3 37 + put h.cause 4 33 + put h.engine 4 29 + put h.ctx 12 17
                + put chip 15 2),
              word (put h.gen 16 48 + put tick 48 0), word (put sections 8 56 + put bytes 25 0), word (put (b2n cut) 1 63),
              word h.from_, word h.to_, 0, 0]

/-- What an area of 2^`size` bytes holds (R471, R497). -/
structure Area where
  hdr : List Byte
  body : List Byte
  bytes : Nat
  /-- Records were left out. -/
  cut : Bool
  deriving DecidableEq, Repr

/-- Sections laid out for an area (R471). -/
def Block.layArea (b : Block) (size : Nat) (h : DumpHead) (ss : List Section) : Area :=
  let fit := fitSections (2 ^ size - 64 - 16 * ss.length) ss
  let body := wordsBytes (fit.flatMap sectionWords)
  let cut := fit.any fun x => x.2 != 0
  let n := 64 + body.length
  { hdr := h.bytes b.chipId b.time.tick ss.length n cut, body, bytes := n, cut }

/-! ### Records (Table 12.7) -/

/-- Index of the tick that holds a fabric time up to now. -/
def Block.tickAt (b : Block) (t : Nat) : Nat :=
  if b.time.edge ≤ t then b.time.tick else b.time.tick - (b.time.edge - t + b.period - 1) / max 1 b.period

/-- STATE of FOLD.STREAM_STATE (Table 6.10). -/
def FState.code : FState → Nat
  | .queue => 0
  | .starting => 1
  | .issuing => 2
  | .wait => 3
  | .tick => 4
  | .fence => 5
  | .done => 5
  | .stopping => 6

/-- FOLD.STREAM_LOOPS of a program (Table 6.10). -/
def Prog.loops (p : Prog) : Word := word (put p.n2 20 40 + put p.n1 20 20 + put p.n0 20 0)

/-- The STREAM record. -/
def Block.streamRec (b : Block) (s : Nat) : List Word :=
  let p := b.prog s
  let x := b.stream s
  [word (put s 8 56 + put p.st.code 4 52 + put p.cause 4 48 + put p.pc 14 34),
   word (put x.head 16 48 + put (b.cqTail s) 16 32 + put x.written 16 16 + put (b.crHead s) 16 0), p.loops,
   ((b.foldCmd s).map fun c => dw c.desc 1).getD 0]

/-- Packets of a command issued and not covered. -/
def Block.uncovered (b : Block) (id : Nat) : Nat := (b.req.posted.filter fun p => p.cmd == id).length + (b.req.tags.filter fun t => t.cmd == id).length

/-- The data instructions of a FOLD that have not completed. -/
def Block.foldParts (b : Block) (c : Cmd) : List Cmd := b.req.cmds.filter fun k => k.ofFold && (b.prog k.stream).cmd == c.id

/-- The COMMAND record; a FOLD's counts are those of its data instructions (R247). -/
def Block.commandRec (b : Block) (c : Cmd) : List Word :=
  let all := c :: b.foldParts c
  let sum := fun (f : Cmd → Nat) => (all.map f).sum
  let issued := sum fun k => k.issuedN
  [word (put c.stream 8 56 + put (dOp c.desc) 8 48 + put c.qindex 16 32 + put (b2n (all.any fun k => k.anyIssued)) 1 31), dw c.desc 1, dDst c.desc,
   word (put issued 32 32 + put (issued - sum fun k => b.uncovered k.id) 32 0),
   word (put (min 0xFFFF (sum fun k => k.failCount)) 16 48 + put (sum fun k => k.bytesOk) 48 0),
   word (put ((c.timer.map b.tickAt).getD 0) 48 0)]

/-- The WAIT record. -/
def Block.waitRec (b : Block) (s : Nat) : List Word :=
  let p := b.prog s
  [word (put s 8 56 + put p.waitCtr 16 40), p.waitTgt, b.ctrVal p.waitCtr, word (put (b.tickAt p.since) 48 0)]

/-- Fabric-clock cycles since a fabric time. -/
def Block.cyclesSince (b : Block) (t : Nat) : Nat := (b.time.now - t) * b.rf (regAt 0x01 0x840) 51 40 / 16000

/-- The ENGINE record; of the sequencer, 12, the spec names no field but its number and its STATE (DESIGN CHOICE, log entry 30). -/
def Block.engineRec (b : Block) (e : Nat) : List Word :=
  if e == 12 then [word (put 12 4 60 + put b.seqState 4 56)] else
  match (b.engine e).held with
  | none => [word (put e 4 60 + put (b.engineState e) 4 56), 0, word (fld (b.peek (mg e 0x048)) 47 0)]
  | some h =>
    [word (put e 4 60 + put (b.engineState e) 4 56 + put h.unit.path 8 48 + put (b.unitCtx h.unit) 12 36 + put 1 1 35),
     word (b.cyclesSince (b.engine e).since), word (fld (b.peek (mg e 0x048)) 47 0)]

/-- RCLASS of a class, 0 outside TC3 to TC5. -/
def rclassField (cls : Nat) : Nat := if 3 ≤ cls then cls - 3 else 0

/-- The FLOW record. -/
def flowRec (f : Flow) : List Word :=
  [word (put (rclassField f.cls) 2 62 + put f.peer 15 47 + put f.issued 24 23),
   word (put f.covered 24 40 + put (b2n f.broken.isSome) 1 39)]

/-- The SUSPECTS record: one bit for each context (R473). -/
def Block.suspectRec (b : Block) : List Word :=
  (List.range 64).map fun i =>
    word (((b.rst.hold.filter fun x => bit x.2 1 && x.1 / 64 == i).map fun x => 2 ^ (x.1 % 64)).sum)

/-- The COUNTER record. -/
def Block.counterRec (b : Block) (n : Nat) : List Word := [word (put n 16 48 + put (b2n (b.ctrBad.contains n)) 1 47), b.ctrVal n]

/-- Streams with a program in a WAIT. -/
def Block.waiting (b : Block) : List Nat := (List.range 256).filter fun s => (b.prog s).st = .wait

/-! ### The dump (R470, Table 12.7) -/

/-- Sections of a dump: of context `c` for a Rinse (kind 1), engines and suspects alone for an engine reset (kind 2),
everything for a larger reset. -/
def Block.dumpSections (b : Block) (kind c : Nat) : List Section :=
  let big := decide (3 ≤ kind)
  let mine := fun (x : Nat) => kind == 1 && x == c
  let streams := (List.range 256).filter fun s =>
    if kind == 1 then (b.stream s).entry.isSome && mine (b.streamCtx s) else b.enabled s && big
  let cmds := b.req.cmds.filter fun k => !k.ofFold && (big || mine k.ctx)
  let waits := b.waiting.filter fun s => big || mine (((b.foldCmd s).map (·.ctx)).getD 4096)
  let ids := (b.req.cmds.filter fun k => k.ctx == c).map (·.id)
  let flows := b.req.flows.filter fun f => big || (kind == 1 && b.req.posted.any fun p => p.peer == f.peer && p.cls == f.cls && ids.contains p.cmd)
  let groups := b.groups.filter fun g => if kind == 1 then fld g.2 56 45 == c else big && bit g.2 63
  [{ type := 1, bytes := 64, recs := streams.map b.streamRec },
   { type := 2, bytes := 64, recs := cmds.map b.commandRec },
   { type := 3, bytes := 32, recs := waits.map b.waitRec },
   { type := 4, bytes := 32, recs := (List.range 13).map b.engineRec },
   { type := 5, bytes := 32, recs := flows.map flowRec },
   { type := 6, bytes := 512, recs := [b.suspectRec] },
   { type := 7, bytes := 16, recs := groups.flatMap fun g => (List.range 64).map fun i => b.counterRec (64 * g.1 + i) }]

/-- A dump (R470, R471, Table 12.12): nothing but SKIPPED while its area is off. -/
def Block.dump (b : Block) (kind cause engine ctx : Nat) : Block :=
  let area := b.peek (rs 0x060)
  if !(bit area 63) then b.setRf (rs 0x068) 46 46 1
  else
    let gen := (b.rf (rs 0x068) 63 48 + 1) % 2 ^ 16
    let base := fld area 51 12 * 4096
    let a := b.layArea (fld area 4 0) { kind, cause, engine, ctx, gen } (b.dumpSections kind ctx)
    (b.hwrite true 0 (base + 64) a.body (.areaBody base a.hdr)).poke (rs 0x068)
      (word (put gen 16 48 + put (b2n a.cut) 1 47 + put kind 3 42 + put a.bytes 25 0))

end Sys2Proof.Machine
end

