-- ==== Sys2Proof/Machine/Reset.lean ====
section
/-!
DEFINITION. Contexts, the Rinse, resets and their escalation, and the watchdog (chapter 12).
-/

namespace Sys2Proof.Machine

/-! ### Start-up's STAGE, and the phases of a reset -/

/-- STAGE shows a step, and ELAPSED_MS its start (Table 11.3). -/
def Block.showStage (b : Block) (k : Nat) : Block :=
  (b.setRf wStartup 63 60 k).setRf wStartup 31 0 (((b.time.now : Int) - b.time.release) / 16000000).toNat

/-- A start-up step begins; STAGE keeps 8 where a compute-domain reset has set it (R421, Table 11.3). -/
def Block.setStage (b : Block) (k : Nat) : Block :=
  if b.boot.early.isSome && decide (k < 8) then { b with boot := { b.boot with early := some k } }
  else ({ b with boot := { b.boot with early := none } }).showStage k

/-- PHASE of RESET.STATUS (Table 12.12). -/
def Block.phase (b : Block) : Nat := b.rf (rs 0x048) 63 60
def Block.setPhase (b : Block) (k : Nat) : Block := b.setRf (rs 0x048) 63 60 k

/-- A reset begins: what RESET.STATUS and the trace say of it (Tables 12.12, 13.4). -/
def Block.resetBegin (b : Block) (level cause engine : Nat) : Block :=
  let b := (((b.setRf (rs 0x048) 59 57 level).setRf (rs 0x048) 56 53 cause).setRf (rs 0x048) 52 49 engine).setRf (rs 0x048) 47 0 b.time.tick
  ({ b with rst := { b.rst with level } }).trace 0x05 0 engine level cause

/-- A refused or ignored write of RESET.REQUEST (R458, R476). -/
def Block.resetRefused (b : Block) : Block := b.pageErr 0x78 2 8

/-- An escalation counted (R472). -/
def Block.escalated (b : Block) : Block := (b.setRf (rs 0x048) 48 48 1).bump (rs 0x078)

/-- Every context in an engine's set is marked a suspect (R473). -/
def Block.markSuspects (b : Block) (e : Nat) : Block :=
  let cs := (b.rst.took.filter fun x => x.1 == e && decide (b.time.tick ≤ x.2.2 + 64)).map fun x => x.2.1
  { b with rst := { b.rst with hold := cs.foldl (fun t c => Tbl.set 0 t c (setFld (Tbl.get 0 t c) 1 1 1)) b.rst.hold } }

/-- VARIANT.FW_LOAD shows the end of a load, an offer or a broadcast (Table 11.7). -/
def Block.fwResult (b : Block) (code : Nat) : Block :=
  ((b.setRf (regAt 0x01 0x808) 63 63 1).setRf (regAt 0x01 0x808) 62 62 (b2n (code != 0))).setRf (regAt 0x01 0x808) 61 58 code

/-- The microcode load that runs on an engine is given up (DESIGN CHOICE, log entry 35). -/
def Block.stopUcode (b : Block) (e : Nat) : Block :=
  if !(b.engine e).loading then b
  else ((b.setRf (mg e 0x078) 63 63 1).setRf (mg e 0x078) 62 62 1).setEngine e fun g =>
    { g with loading := false, image := [], imageRead := false, imageBad := false }

/-! ### Engine reset (R459 to R461) -/

/-- Steps 1 to 3 of R459: the engine is quiesced, its unit abandoned with POISON, its state cleared; a microcode load that
ran is given up as failed (DESIGN CHOICE, log entry 35). -/
def Block.clearEngine (b : Block) (e : Nat) : Block :=
  let b := b.stopUcode e
  (b.setEngine e fun g =>
    { g with resetting := true, loading := false, image := [], imageRead := false, imageBad := false }).unitDone e true

/-- Every running program stopped with POISON, every pass window disarmed (R460). -/
def Block.clearSequencer (b : Block) : Block :=
  (List.range 256).foldl (fun b s => (if (b.prog s).cmd == 0 then b else b.foldHalt s 5 stPOISON).disarm s) b

/-- An engine reset begins (R459, R460, R470): dump, then what is cleared; 12 is the sequencer. -/
def Block.engineReset (b : Block) (e cause : Nat) : Block :=
  let b := (b.resetBegin 2 cause e).setPhase 1
  let b := (b.dump 2 cause e 0).bump (rs 0x080)
  let b := b.tracing fun b =>
    { b with rst := { b.rst with engines := if b.rst.engines.contains e then b.rst.engines else b.rst.engines ++ [e] } }
  (if e == 12 then b.clearSequencer else b.clearEngine e).dispatchAll.covers

/-- An engine reset asked for with a level already in progress (R458). -/
def Block.requestEngine (b : Block) (e cause : Nat) : Block :=
  if 2 ≤ b.rst.level then b.resetRefused else b.engineReset e cause

/-- The known-answer run of a reset engine, or of the sequencer, has ended (R440, R442, R459, R460). -/
def Block.engineResetDone (b : Block) (e : Nat) (ok : Bool) : Block :=
  if !(b.rst.engines.contains e) then b
  else
    let b := b.tracing fun b =>
      { b with rst := { b.rst with engines := b.rst.engines.filter (· != e) },
               boot := { b.boot with seqGood := if e == 12 then ok else b.boot.seqGood } }
    let b := if e == 12 then b
      else
        let f := if !ok then b.boot.failed ||| 2 ^ e
          else if bitN b.boot.failed e && !(bitN b.boot.sramFailed e) then b.boot.failed - 2 ^ e else b.boot.failed
        ({ b with boot := { b.boot with failed := f } }).setEngine e fun g => { g with resetting := false, failed := !ok }
    let b := if b.rst.engines.isEmpty && b.rst.level == 2 then ({ b with rst := { b.rst with level := 0 } }).setPhase 0 else b
    b.republish.dispatchAll.reqPump.covers

/-- Whether an engine has held one unit, or the sequencer's decode made no progress with a stream ready to issue, for more than
HANG_KCYCLES × 1,024 cycles (R461). -/
def Block.stuck (b : Block) (e : Nat) : Bool :=
  let long := fun (t : Nat) => decide (1024 * b.rf (rs 0x050) 15 0 < b.cyclesSince t)
  if e == 12 then (List.range 256).any fun s => b.foldReady s && long (max b.fold.lastAt (b.prog s).since)
  else (b.engine e).held.isSome && long (b.engine e).since

/-- An engine has made no progress for HANG_KCYCLES (R461, R473): it is reset while AUTO_ENGINE is 1. -/
def Block.engineHung (b : Block) (e now : Nat) : Block :=
  let b := b.clock now
  if !(bit (b.peek (rs 0x050)) 62) || 2 ≤ b.rst.level || 12 < e || !(b.stuck e) then b
  else (b.markSuspects e).engineReset e 2

/-! ### The Rinse (R453 to R456) -/

/-- Whether a unit is outbound work of a context (Table 12.1). -/
def Block.outboundOf (b : Block) (c : Nat) (u : MUnit) : Bool :=
  match u.kind with
  | .reduce _ => false
  | _ => b.unitCtx u == c

/-- Mangle units of a context's outbound work discarded unwritten (Table 12.1). -/
def Block.rinseUnits (b : Block) (c : Nat) : Block :=
  let b' := { b with mangle := { b.mangle with queue := b.mangle.queue.filter fun u => !(b.outboundOf c u) } }
  (List.range 12).foldl (fun x e => match (b.engine e).held with
    | some h => if b.outboundOf c h.unit then x.setEngine e fun g => { g with held := none } else x
    | none => x) b'

/-- A context's streams disabled and its programs and commands removed, their TAGs closed (R91, R114, R217, R237). -/
def Block.rinseWork (b : Block) (c : Nat) : Block :=
  let b := (List.range 256).foldl (fun b s =>
    let b := if (b.prog s).cmd != 0 && ((b.foldCmd s).map fun k => k.ctx) == some c then
        (b.disarm s).setProg s fun _ => {} else b
    if !(b.enabled s) then b
    else if !(b.stream s).ready then b.setStream s fun x => { x with rinsed := some c }
    else if b.streamCtx s == c then b.disableStream s else b) b
  let mine := b.req.cmds.filter fun k => k.ctx == c
  let b := { b with fold := { b.fold with passPkts := b.fold.passPkts.filter fun x => !(mine.any fun k => k.id == x.cmd) } }
  mine.foldl (fun b k =>
    let b := (b.req.tags.filter fun t => t.cmd == k.id).foldl (fun b t => b.closeTag t k.timeoutMs) b
    let b := b.dropCmd k
    if k.ofFold then b else b.setStream k.stream fun x => { x with reserved := x.reserved - 1 }) b

/-- VALID cleared in every entry, counter group and unshared profile that a context owns, in the start step (R77, Table 12.1). One that
software makes valid while the Rinse runs stays valid: R77 does not say what becomes of it (DESIGN CHOICE, log entry 38). -/
def Block.rinseTables (b : Block) (c : Nat) : Block :=
  let off := fun (_ : Nat) (v : Word) => if fld v 56 45 == c then setFld v 63 63 0 else v
  let b := { b with segmap := Tbl.remap (fun _ => 0) off b.segmap, groups := Tbl.remap (fun _ => 0) off b.groups }
  (List.range 16).foldl (fun b k =>
    let p := profileOf (b.peek (mg 0 (0x800 + 8 * k))).toNat 0
    if p.owner == c && !p.shared && p.valid then b.setRf (mg 0 (0x800 + 8 * k)) 63 63 0 else b) b

/-- The Rinse starts at the first edge after its request (R453, R454). -/
def Block.rinseStart (b : Block) : Block :=
  match b.rst.rinseDue with
  | none => b
  | some c =>
    if !b.up || b.rst.draining || b.time.tick == b.rst.rinseStart || !b.onEdge then b
    else
      let b := (b.dump 1 1 0 c).trace 0x03 c 0 c 0
      let pkts := (b.dest.pkts.filter fun p => !p.done).map (·.id)
      let b := { b with rst := { b.rst with rinseDue := none, rinse := some c, rinsing := true, rinseStart := b.time.tick,
                                            rinsePkts := pkts, rinsePassed := 0 } }
      let b := ((b.rinseUnits c).rinseWork c).rinseTables c
      let hs := b.hampered.filter fun (p, x) => x.st = .hamper && hSrc p.hdr == b.chipId && hCtx p.hdr == c
      ((b.flushAll hs).flushEvents hs 0).soloCheck.dispatchAll.reqPump.covers

/-- Whether this is an edge at which the Rinse has waited for all that R455 asks (R37). -/
def Block.rinseReady (b : Block) : Bool :=
  b.rst.rinsing && b.onEdge && decide (16384000 ≤ (b.time.tick - b.rst.rinseStart) * b.tickCycles)
  && b.rst.rinsePkts.all fun id => ((b.pkt? id).map fun p => p.done).getD true

/-- The Rinse completes at an edge (R455). -/
def Block.rinseComplete (b : Block) : Block :=
  match b.rst.rinse with
  | none => b
  | some c =>
    if !b.rinseReady then b
    else
      let n := min 0xFFFF (b.time.tick - b.rst.rinseStart)
      let b := (((b.setRf (cx 0x050) 63 63 1).setRf (cx 0x050) 47 32 n).bump (cx 0x068)).trace 0x04 c 0 n (b.rf (cx 0x050) 61 61)
      let b := { b with rst := { b.rst with rinse := none, rinsing := false, rinsePkts := [], rinsePassed := 0 } }
      if b.rf (cx 0x058) 63 63 == 1 && b.rf (cx 0x058) 11 0 == c then b.setRf (cx 0x058) 63 62 0 else b

/-- A reset of the domain abandons the Rinse (Table 12.2). -/
def Block.abandonRinse (b : Block) : Block :=
  let c := if b.rst.rinsing then b.rst.rinse else b.rst.rinseDue
  match c with
  | none => b
  | some c =>
    let b := if b.rst.rinsing then b.trace 0x04 c 0 (min 0xFFFF (b.time.tick - b.rst.rinseStart)) (2 + b.rf (cx 0x050) 61 61) else b
    let b := (b.setRf (rs 0x098) 63 63 1).setRf (rs 0x098) 11 0 c
    { b with rst := { b.rst with rinseDue := none, rinse := none, rinsing := false, rinsePkts := [], rinsePassed := 0 } }

/-! ### Compute-domain reset (R462 to R466) -/

/-- Whether an access belongs to the link or management domain and lives on through a compute-domain reset (R288). -/
def JobKind.lives : JobKind → Bool
  | .lasting | .ringPart .. | .snapHead | .snapPart | .areaBody .. | .dump | .replayRead .. | .hamperRead .. | .fwImage _ => true
  | _ => false

/-- Accesses of every kind but those of `lives` forgotten: what is outstanding is answered to no one, what waits is never offered. -/
def Block.dropJobs (b : Block) (lives : JobKind → Bool) : Block :=
  let jobs := b.host.jobs.filter fun j => lives j.kind
  let live := fun (t : Txn) => jobs.any fun j => j.id == t.job
  { b with host := { b.host with jobs, waiting := b.host.waiting.filter live } }

/-- Packets that wait at the destination side are absorbed (R34, R465); TC0 and TC6 stay. -/
def Block.absorbInbox (b : Block) : Block :=
  let gone := fun (p : Packet) => opClass (hOp p.hdr) != 0 && opClass (hOp p.hdr) != 6
  let n := (b.dest.inbox.filter gone).length
  let arrived := b.obs.arrived.filter fun x => !(b.dest.inbox.contains x.1 && gone x.1)
  ({ b with dest := { b.dest with inbox := b.dest.inbox.filter fun p => !(gone p) }, obs := { b.obs with arrived } }).bumpN (rs 0x070) n

/-- Whether a held write belongs to the link or management domain. -/
def Block.waiterLives (b : Block) (w : Nat × Nat × Waiter) : Bool :=
  match w.2.2 with
  | .pkt _ => false
  | .write _ _ _ job => b.host.jobs.any fun j => j.id == job

/-- Step 2 of Table 12.5: work ends. The locks that reads have taken stay known until they are released (R168, R287). -/
def Block.stopCompute (b : Block) : Block :=
  let b := b.abandonRinse.absorbInbox
  let b := ({ b with rst := { b.rst with down := true, draining := true } }).withdraw.dropJobs JobKind.lives
  let idle := fun (g : Engine) => { g with held := none, resetting := false, image := [], imageRead := false, imageBad := false }
  let b := b.tracing fun b => { b with
    mangle := { b.mangle with queue := [], engines := b.mangle.engines.map idle }, rst := { b.rst with engines := [] } }
  let b := { b with
    req := { streams := b.req.streams, nextCmd := b.req.nextCmd, afterReset := true },
    dest := { inbox := b.dest.inbox, waiters := b.dest.waiters.filter b.waiterLives, nextId := b.dest.nextId, afterReset := true },
    fold := { store := b.fold.store, bad := b.fold.bad },
    fwd := { b.fwd with held := [], newSeen := [] },
    mirrorDue := [], segFence := [], ctrFence := [], obs := { b.obs with sawDown := true } }
  b.releaseWaiters.hostPump

/-- A compute-domain reset begins (R462, R421, R446): request, stop, dump. STAGE shows 8 from now on, unless start-up has stopped
(R422); steps before 8 that have not run go on beneath it. PHASE shows 2 until the dump is written, or, without one, until the drain has
gone on by a step (Table 12.12). -/
def Block.computeReset (b : Block) (cause : Nat) : Block :=
  let b := (b.resetBegin 3 cause 0).setPhase 2
  let b := b.dump 3 cause 0 0
  let b := b.stopCompute.poke wFeatAgreed 1
  let k := b.bootStage
  let b := if k == 0xF then b else ({ b with boot := { b.boot with early := if k < 8 then some k else none } }).showStage 8
  b.hamperCheck.covers

/-- A compute-domain reset asked for (R458). -/
def Block.requestCompute (b : Block) (cause : Nat) : Block :=
  if 3 ≤ b.rst.level then b.resetRefused else b.computeReset cause

/-- Domain of a window word. -/
def wordDomain (w : Nat) : Option Domain := (pageKind (w / 512)).map kindDomain

/-- Words that a reset takes from the fuses and from the microcode in use (Tables 2.13, 5.13). -/
def Block.imageWords (b : Block) : Block :=
  (List.range 12).foldl (fun b e => b.setRf (mg e 0x070) 31 0 (b.boot.ucode.getD e 0)) (b.poke (sg 0x070) (word b.boot.fuseBanks))

/-- Registers of the compute domain at their reset values; RWS fields stay where `rws` is set, KEY_ROOT_LEFT always
(Table 15.2). -/
def Block.clearPages (b : Block) (rws : Bool) : Block :=
  let keep := fun (w : Nat) (v : Word) =>
    if wordDomain w = some .compute && w != sg 0x080 then
      let m := if rws then word (((regDef w).map fun d => d.rws).getD 0) else 0
      (v &&& m) ||| (regDefault w &&& ~~~m)
    else v
  { b with regs := Tbl.remap regDefault keep b.regs }.imageWords

/-- Step 6 of Table 12.5: everything that R462 clears; entries of the Segment Map and of counter groups lose VALID, and
those whose word held an uncorrectable error are zero (R56, R70); counters keep their values (R160); tags held back are free
(R267). -/
def Block.clearCompute (b : Block) : Block := b.tracing fun b =>
  let b := b.clearPages true
  let seg := fun (i : Nat) (v : Word) => if b.segBad.contains (segWord i) then 0 else setFld v 63 63 0
  let grp := fun (g : Nat) (v : Word) => if b.groupBad.contains g then 0 else setFld v 63 63 0
  { b with
    segmap := Tbl.remap (fun _ => 0) seg b.segmap, segBad := [],
    groups := Tbl.remap (fun _ => 0) grp b.groups, groupBad := [],
    req := { nextCmd := b.req.nextCmd, afterReset := true },
    dest := { inbox := b.dest.inbox, nextId := b.dest.nextId, afterReset := true },
    mangle := {}, fold := {},
    host := { b.host with out := b.host.out.filter fun t => !t.dead, lat := List.replicate 12 {}, locks := [] },
    rst := { b.rst with draining := false, closed := true, hold := [], took := [] } }

/-- Locks still held are released by writes that enable no byte (R168, R287). -/
def Block.unlockAll (b : Block) : Block :=
  b.host.locks.foldl (fun b l => b.access .wr l.unc false true l.ctx l.addr l.len [] 0 .lasting) b

/-- The restart after a compute-domain reset (R421, Table 12.12). -/
def Block.restartCompute (b : Block) : Block :=
  let b := b.setPhase 5
  if b.bootStage == 8 then b.setStage 8 else b

/-- Host channels and replay spill have drained (R287, R358): the domain's state is cleared, and the block is held or
restarts (R462, R464). -/
def Block.computeDrained (b : Block) : Block :=
  let busy := (b.host.out.any fun t => !t.dead) || b.host.waiting.any b.drains || b.ports.any fun q => q.flits.any fun f => f.spilled
  let b := b.drainStep
  if b.rst.level != 3 || !b.rst.draining || busy then b
  else
    let b := b.unlockAll.clearCompute
    if bit (b.peek (rs 0x050)) 63 then b.setPhase 4 else b.restartCompute

/-- RELEASE written (R464): ignored but at step 7. -/
def Block.releaseReset (b : Block) : Block := if b.phase == 4 then b.restartCompute else b

/-! ### Block reset (R467) -/

/-- Registers that a block reset returns to their reset values (Table 15.2, R505), FEATURES_AGREED among them (R446). -/
def Block.clearBlockPages (b : Block) : Block :=
  let kept := [regAt 3 0x060, regAt 3 0x068, regAt 3 0x070]
  let keep := fun (w : Nat) (v : Word) => if wordDomain w = some .link && !(kept.contains w) then regDefault w else v
  let b := { b with regs := Tbl.remap regDefault keep (b.clearPages false).regs }
  b.poke wFeatAgreed 1

/-- A port's lanes after a block reset: its power stays, and DOWN goes out on its pilot lane (R368). -/
def resetLane (l : LaneSt) : LaneSt :=
  let bye := mkPilot 3 0 []
  let n : LaneSt := { ({} : LaneSt) with powered := l.powered, powering := l.powering, pilotTx := l.pilotTx }
  if l.powered then n.sendPilot [bye] else n

/-- The link and compute domains at reset; fabric time counts from 0 again, unlocked (R160, R457, R467, R468, R533). What the management
domain and the host channels have noted of time moves with it. -/
def Block.clearBlock (b : Block) : Block := b.tracing fun b =>
  let b := b.clearBlockPages
  let t := b.time
  { b with
    segmap := [], segBad := [], ctrs := [], ctrBad := [], mirrorDue := [], groups := [], groupBad := [], segFence := [], ctrFence := [],
    boot := { b.boot with kickAt := b.boot.kickAt - t.now, startAt := b.boot.startAt - t.now },
    time := { release := t.release - t.now,
              waiting := b.rf wSealLeft 63 63 == 1 && b.rf wSeal 48 34 == b.chipId },
    host := { b.host with out := (b.host.out.filter fun t => !t.dead).map fun t => { t with start := 0 }, lat := List.replicate 12 {}, locks := [] },
    req := { nextCmd := b.req.nextCmd, afterReset := true },
    dest := { nextId := b.dest.nextId, afterReset := true },
    mangle := {}, fold := {}, fwd := {},
    ports := List.replicate 6 {}, lanes := b.lanes.map resetLane, obs := { b.obs with arrived := [], sampleTick := 0, cutTick := 0, sawDown := true },
    rst := { level := 4, down := true, closed := true, coldReq := b.rst.coldReq } }

/-- Every link drops (R467): the trace says so (Table 13.4). What their traffic meets under Table 9.10 ends with the domains. -/
def Block.dropLinks (b : Block) : Block :=
  (List.range 6).foldl (fun b p =>
    if (b.port p).st == 0 then b else b.trace 0x01 0 p (put (b.port p).st 4 4 + put (b.port p).cause 4 8) 0) b

/-- A block reset begins (R421, R467, R470): dump, then both domains reset; the dump's writes and the release of locks (R168) are
offered first. Each port that leaves UP or QUARANTINE publishes the patch map (R442). Where start-up has stopped, no step runs and every
port stays in DOWN with cause SOFTWARE (R422). -/
def Block.blockReset (b : Block) (cause : Nat) : Block :=
  let b := (b.resetBegin 4 cause 0).setPhase 6
  let b := (b.dump 4 cause 0 0).stopCompute.unlockAll
  let up := (List.range 6).filter fun p => (b.port p).st == 5 || (b.port p).st == 3
  let stopped := b.bootStage == 0xF
  let b := b.dropLinks.clearBlock
  let b := if stopped then { b with ports := b.ports.map fun q => { q with cause := 8 } }
    else ({ b with boot := { b.boot with early := none } }).showStage 2
  let b := b.hostPump
  up.foldl (fun b _ => b.republish) b

/-- A block reset asked for (R458). -/
def Block.requestBlock (b : Block) (cause : Nat) : Block :=
  if 4 ≤ b.rst.level then b.resetRefused else b.blockReset cause

/-! ### Escalation (R472, Table 12.8) -/

/-- The Rinse passes RINSE_TICKS: engine resets of the engines that hold its work; at the second passing a compute-domain
reset. -/
def Block.rinseDeadline (b : Block) : Block :=
  let d := max 1 (b.rf (rs 0x058) 63 48)
  let n := b.time.tick - b.rst.rinseStart
  match b.rst.rinse with
  | none => b
  | some c =>
    if !b.rst.rinsing then b
    else if b.rst.rinsePassed == 0 && decide (d < n) then
      let es := (List.range 12).filter fun e => ((b.engine e).held.map fun h => b.unitCtx h.unit) == some c
      let b := (b.escalated.setRf (cx 0x050) 61 61 1)
      let b := { b with rst := { b.rst with rinsePassed := 1 } }
      let b := es.foldl (fun b e => if 3 ≤ b.rst.level then b else (b.markSuspects e).engineReset e 3) b
      (b.setRf (rs 0x048) 59 57 1).setRf (rs 0x048) 56 53 3
    else if b.rst.rinsePassed == 1 && decide (2 * d < n) && b.rst.level < 3 then (b.escalated.setRf (cx 0x050) 61 61 1).computeReset 3
    else b

/-- An engine reset passes ENGINE_US. -/
def Block.engineDeadline (b : Block) : Block :=
  if b.rst.level != 2 || b.rst.engines.isEmpty then b
  else (b.rst.engines.foldl (fun b e => b.markSuspects e) b.escalated).computeReset 4

/-- A compute-domain reset passes COMPUTE_MS in steps 2 to 6. -/
def Block.computeDeadline (b : Block) : Block :=
  if b.rst.level != 3 || !b.rst.draining then b else b.escalated.blockReset 5

/-- A block reset passes BLOCK_MS before training: every port stays in DOWN, and COLD_REQ is asserted (R467, R512). -/
def Block.blockDeadline (b : Block) : Block :=
  if b.rst.level != 4 then b
  else
    let b := (b.escalated.resetBegin 5 8 0).setPhase 7
    { b with rst := { b.rst with coldReq := true } }

/-- An uncorrectable error in the compute domain's control state (R463); a reset of its level or a higher one in progress goes on (R458). -/
def Block.controlPoison (b : Block) : Block := if 3 ≤ b.rst.level then b else b.computeReset 6

/-! ### The management core (R428, R469) -/

/-- The core restarts, on ROM or on the image that runs, and loses its state (R428, Tables 11.2, 12.4): loads and checks that run are given
up as failed (DESIGN CHOICE, log entry 35), what it has assembled and what it broadcasts are gone. The staged image stays. -/
def Block.restartCore (b : Block) : Block :=
  let o := b.boot
  let b := if o.loading || o.checking then b.fwResult 3 else b
  let b := (List.range 12).foldl Block.stopUcode b
  let b := b.dropJobs fun k => match k with | .fwImage _ => false | .ucImage .. => false | _ => true
  { b with boot := { b.boot with
    restarting := true, answer := [], loading := false, image := [], imageRead := false, imageBad := false, offer := none, offered := [],
    checking := false, offerOk := false, session := none, chunks := [], recvDue := none, bcast := none } }.setRf (regAt 0x01 0x820) 62 62 0

/-- The core runs another image: its kind and version show in IMAGE and FW_VERSION. -/
def Block.runImage (b : Block) (kind version : Nat) : Block :=
  let b := { b with boot := { b.boot with running := (kind, version) } }
  (b.setRf wStartup 42 40 kind).setRf (regAt 0x01 0x818) 31 0 version

/-- PERIOD_MS has passed without a kick (R469): the watchdog bites, and restarts the core; four bites with less than 10 s of running before
each fall back to ROM. -/
def Block.watchdogBite (b : Block) (now : Nat) : Block :=
  let b := b.clock now
  let late := b.boot.kickAt + 16000000 * b.rf (rs 0x088) 31 16 ≤ b.time.now
  if !b.boot.coreUp || b.boot.restarting || !late then b else
  let n := if (b.time.now : Int) - b.boot.startAt < 160000000000 then b.boot.bites + 1 else 1
  let b := b.bump (rs 0x090)
  if 4 ≤ n then
    ((({ b with boot := { b.boot with bites := 0 } }).runImage 0 0).setRf (rs 0x088) 63 63 1).restartCore
  else ({ b with boot := { b.boot with bites := n } }).restartCore

/-- The restart is complete: a training that it interrupted starts again at step 1, and one that waited for the core begins (R399, R428,
R458). -/
def Block.coreRestarted (b : Block) : Block :=
  if !b.boot.restarting then b
  else
    let due := b.boot.trainDue
    let b := { b with boot := { b.boot with restarting := false, trainDue := [], startAt := b.time.now, kickAt := b.time.now } }
    (List.range 6).foldl (fun b p => if (b.port p).st == 1 || (due.contains p && (b.port p).st == 0) then b.startTraining p false else b) b

end Sys2Proof.Machine
end

