-- ==== Sys2Proof/Machine/Startup.lean ====
section
/-!
DEFINITION. Start-up, the seal, firmware images, Mildom's answers and JTAG (chapters 11 and 14).
-/

namespace Sys2Proof.Machine

/-! ### Cold reset and the fuses (R416, R510, R511) -/

/-- The block after a cold reset: everything but the fuses, and how many free values have been used. -/
def Block.fresh (b : Block) : Block :=
  let o := b.boot
  { free := b.free,
    boot := { fuseVariant := o.fuseVariant, fuseEngines := o.fuseEngines, fuseBanks := o.fuseBanks, fuseRevision := o.fuseRevision,
              fuseSerial := o.fuseSerial } }

/-- Fields that a cold reset reads from the fuses (Tables 2.13, 14.9, 15.7, 15.9, R444). -/
def Block.loadFuses (b : Block) : Block :=
  let o := b.boot
  let run := o.fuseVariant.getD 2
  let b := b.poke wCode (word (put run 4 60 + put (b2n o.fuseVariant.isNone) 1 8 + put (o.fuseVariant.getD 0xF) 4 0))
  let b := (b.setRf (regAt 0x00 0x040) 35 28 o.fuseRevision).poke (regAt 0x00 0x048) o.fuseSerial
  let b := ((b.poke (sg 0x070) (word o.fuseBanks)).poke (regAt 0x01 0x048) (word o.fuseBanks)).setRf wPatch0 43 32 o.fuseEngines
  let b := ((b.setRf wClock 63 52 b.fusedMhz).setRf wClock 51 40 b.fusedMhz).setRf wPower 47 32 b.fusedCap
  let b := { b with boot := { b.boot with capMhz := b.fusedMhz } }
  b.setRf wFeatOffered 9 9 (b2n (decide (b.variant < 2)))

/-- COLD_RST_N falls (R511): links drop without a word, nothing is written; COLD_REQ and THERMTRIP_N are released (R512, R527). -/
def Block.coldAssert (b : Block) : Block :=
  let f := b.fresh
  { f with boot := { f.boot with coldHeld := true }, lanes := List.replicate 6 { powered := false } }

/-- COLD_RST_N rises (R416, R510, R516): straps sampled, a provisional ID drawn, step 1 begins. -/
def Block.coldRelease (b : Block) (csel : Bool) (x y prov : Nat) : Block :=
  if !b.boot.coldHeld then b
  else
    let f := b.fresh
    let f := ({ f with boot := { f.boot with provId := prov % 4096 } }).loadFuses
    (f.poke (regAt 0x02 0x050) (word (put (b2n csel) 1 63 + put y 5 5 + put x 5 0))).setRf wStartup 43 43 (b2n csel)

/-- Every port is held in DOWN with cause SOFTWARE (R422, R518). -/
def Block.holdDown (b : Block) : Block :=
  (List.range 6).foldl (fun b p => (b.toDown p 8).setPort p fun q => { q with cause := 8 }) b

/-- Start-up stops (R422, Table 11.3). -/
def Block.stopStart (b : Block) (cause : Nat) : Block :=
  ((({ b with boot := { b.boot with early := none } }).setRf wStartup 63 60 0xF).setRf wStartup 59 56 cause).holdDown

/-- The fuses have been read twice (R416, R422). -/
def Block.fuseLoad (b : Block) (agree : Bool) : Block :=
  if b.bootStage != 1 || b.boot.coldHeld then b else if agree then b.setStage 2 else b.stopStart 1

/-- Engines that are neither fused off nor failed. -/
def Block.goodCount (b : Block) : Nat := popCount 12 b.enginesGood

/-- Every port that may leaves DOWN, one that a lane test holds there apart (R392, R408, R435). -/
def Block.trainAll (b : Block) : Block :=
  (List.range 6).foldl (fun b p => if (b.port p).st == 0 && b.testMode p == 0 then b.startTraining p false else b) b

/-- Firmware writes its copies of the ports' last starch records back into the starch windows (R467). -/
def Block.starchBack (b : Block) : Block :=
  b.boot.starch.foldl (fun b x => b.poke (ln (x.1 / 64) (0x100 + 8 * (x.1 % 64))) x.2) b

/-- Step 6 begins: the starch records are there again, and every port that may trains (R416, R418, R467). -/
def Block.enterStep6 (b : Block) : Block := ((({ b with boot := { b.boot with reached := 0 } }).setStage 6).starchBack).trainAll

/-- What unrepaired SRAMs do (Table 11.4): engines and ports by mask, `other` for any other SRAM. -/
def Block.sramResult (b : Block) (eng port : Nat) (other : Bool) : Block :=
  let e := eng % 4096
  let b := { b with boot := { b.boot with failed := b.boot.failed ||| e, sramFailed := b.boot.sramFailed ||| e,
                                          portFailed := b.boot.portFailed ||| port % 64 } }
  if other then b.stopStart 2 else if b.goodCount < 10 then b.stopStart 3 else b

/-- Step 2 ends (R421, R423): step 3 follows, or step 6 in a block reset, whose training begins. One that has passed its deadline trains no
port and waits for a cold reset (R467). -/
def Block.sramSelfTest (b : Block) (eng port : Nat) (other : Bool) : Block :=
  if b.bootStage != 2 || b.boot.coldHeld then b
  else
    let b := ({ b with boot := { b.boot with failed := 0, sramFailed := 0, portFailed := 0 } }).sramResult eng port other
    if b.bootStage != 2 then b
    else if b.rst.level == 4 then
      (({ b with rst := { b.rst with level := 0 } }).setPhase 0).enterStep6
    else if b.rst.level == 5 then b.setStage 6
    else b.setStage 3

/-- Steps 4 and 5: coordinates and seal; sealed, the ports train (R416, R433). -/
def Block.coordinates (b : Block) : Block :=
  if b.rf wSealLeft 63 63 == 1 then b.enterStep6
  else b.setStage (if b.rf (regAt 0x02 0x050) 63 63 == 1 then 5 else 4)

/-! ### Images (R424 to R427) -/

/-- FW_VERSION of an image. -/
def imageVersion (img : List Byte) : Nat := ofBytes (slice img 0 4)

/-- The check of R426, in its order: 0 where it passes. `typ` is the type asked for; `digest` and `sig` say whether the
digest of KEY is the fused one and whether the signature is valid. -/
def Block.imageCode (b : Block) (typ : Nat) (img : List Byte) (bad digest sig : Bool) : Nat :=
  let w0 := ofBytes (slice img 0 8)
  let w1 := ofBytes (slice img 8 8)
  let len := bits w1 31 0
  if bad then 6
  else if bits w0 63 48 != 0xF1A6 || bits w0 47 40 != typ || bits w1 63 32 != 0 || !((slice img 208 304).all (· == 0)) then 1
  else if b.boot.fuseRevision < bits w0 39 32 then 2
  else if len < 4 || 1048576 < len || len % 4 != 0 || img.length != 512 + len then 3
  else if !digest then 4
  else if !sig then 5 else 0

/-- Bytes of the image offered over Mildom, in offset order, none for one that is missing. -/
def Block.offeredBytes (b : Block) : List (Option Byte) :=
  (List.range (b.boot.offer.getD 0)).map fun i =>
    b.boot.offered.reverse.findSome? fun x => if x.1 ≤ i then (x.2.drop (i - x.1)).head? else none

/-- The image offered, with zero where a byte is missing. -/
def Block.offeredImage (b : Block) : List Byte := b.offeredBytes.map fun x => x.getD 0

/-- The check of the offered image has ended (R424, R426): a missing byte fails it at the third test, where no earlier one has. -/
def Block.offerChecked (b : Block) (digest sig : Bool) : Block :=
  if !b.boot.checking then b
  else
    let first := b.imageCode 1 b.offeredImage false digest sig
    let code := if (b.offeredBytes.all Option.isSome) || first == 1 || first == 2 then first else 3
    ({ b with boot := { b.boot with checking := false, offerOk := code == 0 } }).fwResult code

/-- Step 3 ends (R424): the image offered runs where its check passed, else the ROM image. -/
def Block.managementBoot (b : Block) : Block :=
  if b.bootStage != 3 || b.boot.coldHeld || b.boot.checking then b
  else
    let b := { b with boot := { b.boot with coreUp := true, startAt := b.time.now, kickAt := b.time.now } }
    let b := if b.boot.offerOk then b.runImage 1 (imageVersion b.offeredImage)
      else if b.boot.offer.isSome && b.rf (regAt 0x01 0x808) 62 62 == 0 then b.fwResult 3 else b
    b.coordinates

/-- FW_LOAD's read and check end (R426, R427): the image is staged, or FAILED and CAUSE say why not. -/
def Block.fwLoadDone (b : Block) (digest sig : Bool) : Block :=
  if !b.boot.loading || !b.boot.imageRead then b
  else
    let code := b.imageCode 1 b.boot.image b.boot.imageBad digest sig
    let b := (if code == 0 then
        { b with boot := { b.boot with staged := some (imageVersion b.boot.image, b.boot.image) } }.setRf (regAt 0x01 0x818) 63 32
          (imageVersion b.boot.image)
      else b).fwResult code
    { b with boot := { b.boot with loading := false, image := [], imageRead := false, imageBad := false } }

/-- FW_LOAD.REQUEST (R427): the image is read; a request while a load runs is refused (DESIGN CHOICE, log entry 32). -/
def Block.fwLoad (b : Block) : Block :=
  if b.boot.loading then b.pageErr 0x01 2 0x101
  else
    let b := { b with boot := { b.boot with loading := true, image := [], imageRead := false, imageBad := false } }
    (b.setRf (regAt 0x01 0x808) 63 63 0).hread true 0 b.fwBase 512 (.fwImage false)

/-- The assembly of a broadcast, where every chunk of it is here (R430). -/
def Block.assembly (b : Block) (n len : Nat) : Option (List Byte) :=
  let parts := (List.range n).map fun k => (b.boot.chunks.find? fun x => x.1 == k).map (·.2)
  if parts.all Option.isSome then
    let bs := (parts.map fun x => x.getD []).flatten
    if len ≤ bs.length then some (bs.take len) else none
  else none

/-- The activation edge (R427, R428, R430, R479): the staged image, or a broadcast's assembly, restarts the core. -/
def Block.fwActivation (b : Block) (digest sig : Bool) : Block :=
  let due := b.rf (regAt 0x01 0x810) 63 63 == 1 && decide (b.rf (regAt 0x01 0x810) 47 0 ≤ b.time.tick)
  let recv := (b.boot.recvDue.map fun x => decide (x.1 ≤ b.time.tick)).getD false
  if !b.onEdge then b
  else match due, b.boot.staged with
  | true, some (v, _) =>
    let b := { b with boot := { b.boot with recvDue := if recv then none else b.boot.recvDue } }
    ((b.setRf (regAt 0x01 0x810) 63 63 0).runImage 2 v).restartCore
  | _, _ =>
    match b.boot.recvDue with
    | none => b
    | some (_, n, len) =>
      if !recv then b
      else
        let b := { b with boot := { b.boot with recvDue := none } }
        match b.assembly n len with
        | none => b.fwResult 7
        | some img => if b.imageCode 1 img false digest sig == 0 then (b.runImage 3 (imageVersion img)).restartCore else b.fwResult 7

/-- A packet of a broadcast (R429, Table 11.6): opcode, bits [61:0] and data, to every chip of the sealed topology. -/
def Block.bcastPkt (b : Block) (op low : Nat) (data : List Byte) : Block :=
  b.inject { hdr := mkReq op (b.injectEpoch 0) (2 ^ 14) b.chipId 0 0 low, data := bytesSlots data }

/-- The next packet of the broadcast leaves (R429): a chunk, or FW_ACTIVATE after the last round. -/
def Block.bcastNext (b : Block) : Block :=
  match b.boot.bcast, b.boot.staged with
  | some (round, k), some (_, img) =>
    let n := (img.length + 2047) / 2048
    let session := b.rf (regAt 0x01 0x820) 61 46
    let rounds := max 1 (b.rf (regAt 0x01 0x820) 45 44)
    if rounds ≤ round then
      let tick := b.rf (regAt 0x01 0x810) 47 0
      let data := toBytes 8 tick ++ toBytes 4 img.length ++ List.replicate 4 (0 : Byte)
      (({ b with boot := { b.boot with bcast := none } }).setRf (regAt 0x01 0x820) 62 62 0).bcastPkt 0x32
        (put session 16 46 + put n 10 36 + put 1 8 17) data
    else
      let data := slice img (2048 * k) 2048
      let last := k + 1 == n
      let nxt := if last then (round + 1, 0) else (round, k + 1)
      ({ b with boot := { b.boot with bcast := some nxt } }).bcastPkt 0x31
        (put session 16 46 + put k 10 36 + put (b2n last) 1 35 + put ((data.length + 15) / 16) 8 17) data
  | _, _ => b

/-- FW_BCAST.START (R429): refused without a staged image or while a broadcast is being sent (DESIGN CHOICE, log entry 32). -/
def Block.bcastStart (b : Block) : Block :=
  if b.boot.staged.isNone || b.boot.bcast.isSome then b.pageErr 0x01 2 0x104
  else ({ b with boot := { b.boot with bcast := some (0, 0) } }).setRf (regAt 0x01 0x820) 62 62 1

/-- An arriving FW_CHUNK (R430). -/
def Block.fwChunk (b : Block) (p : Packet) : Block :=
  let s := fld p.hdr 61 46
  let k := fld p.hdr 45 36
  let o := b.boot
  let old := if o.session == some s then o.chunks else []
  let add := if p.bad || old.any fun x => x.1 == k then old else old ++ [(k, slotsBytes p.data)]
  { b with boot := { o with session := some s, chunks := add } }

/-- An arriving FW_ACTIVATE (R430): the session's activation is due at its tick, or, where that has passed, at the first edge after its
arrival (R479). -/
def Block.fwActivatePkt (b : Block) (p : Packet) : Block :=
  let s := fld p.hdr 61 46
  let d := slotsBytes p.data
  let o := b.boot
  let chunks := if o.session == some s then o.chunks else []
  if p.bad then b
  else { b with boot := { o with session := some s, chunks, recvDue := some (max (ofBytes (slice d 0 6)) (b.time.tick + 1), fld p.hdr 45 36, ofBytes (slice d 8 4)) } }

/-! ### The seal (R432 to R435, R547) -/

/-- The fields of TOPO.SEAL. -/
def sealMask : Nat := mask 63 34 + mask 14 0

/-- Whether R434 refuses a seal. -/
def Block.sealRefused (b : Block) (v : Word) : Bool :=
  let st := b.peek (regAt 0x02 0x050)
  let inside := fun (c : Nat) => decide (coord c 0 ≤ fld v 63 59) && decide (coord c 1 ≤ fld v 58 54) && decide (coord c 2 ≤ fld v 53 49)
  (bit st 63 && (fld v 9 0 != fld st 9 0 || fld v 14 10 != 0 || fld v 53 49 != 0))
  || !(inside (fld v 14 0)) || !(inside (fld v 48 34))
  || (b.rf wSealLeft 63 63 == 1 && v != b.peek wSeal && b.ports.any fun q => q.st != 0 && q.st != 3)

/-- A privileged write of TOPO.SEAL (R432 to R435, R436, R481, R547). -/
def Block.sealWrite (b : Block) (w : Word) : Block :=
  let v := w &&& word sealMask
  let sealed_ := b.rf wSealLeft 63 63 == 1
  if sealed_ && v == b.peek wSeal then b
  else if b.sealRefused v then b.pageErr 0x02 2 8
  else if b.rf wSealLeft 2 0 == 0 then b.pageErr 0x02 3 8
  else
    let b := ((b.poke wSeal v).setRf wSealLeft 63 63 1).setRf wSealLeft 2 0 (b.rf wSealLeft 2 0 - 1)
    let b := b.sealTime
    if b.bootStage == 4 || b.bootStage == 5 then b.enterStep6
    else if sealed_ then b else b.trainAll

/-! ### Steps 6 to 9 (R418, R439, R440) -/

/-- Steps 6 and 7 (R418, R439): once every port has settled, step 7 waits for the lock, and step 8 follows. -/
def Block.trainingEnd (b : Block) : Block :=
  if (b.bootStage != 6 && b.bootStage != 7) || b.boot.coldHeld || !((List.range 6).all b.settled) then b
  else if b.locked then b.setStage 8
  else if b.bootStage == 6 then b.setStage 7 else b

/-- Step 9 and what ends with it (R420, R442, R462): the patch map is published, the domain is up. -/
def Block.step9 (b : Block) : Block :=
  let b := (b.setStage 9).absorbInbox
  let b := b.tracing fun b =>
    { b with boot := { b.boot with published := true }, rst := { b.rst with down := false, closed := false, level := 0 } }
  ((b.publish.setPhase 0).setStage 10).hostPump

/-- Step 8 ends (R440, R422): engines by mask that failed, and whether the sequencer's programs passed. -/
def Block.knownAnswer (b : Block) (eng : Nat) (seqOk : Bool) : Block :=
  if b.bootStage != 8 || b.phase == 2 || b.phase == 3 || b.phase == 4 || b.boot.coldHeld then b
  else
    let b := { b with boot := { b.boot with failed := b.boot.sramFailed ||| eng % 4096, seqGood := seqOk } }
    let b := b.tracing fun b =>
      { b with mangle := { b.mangle with engines := b.mangle.engines.mapIdx fun e g => { g with failed := bitN b.boot.failed e } } }
    if b.goodCount < 10 then b.stopStart 3 else b.step9

/-- Step 10 ends (R447). -/
def Block.step10 (b : Block) : Block := if b.bootStage == 10 then b.setStage 11 else b

/-! ### Mildom (R513 to R516) -/

/-- One bit and one byte of the CRC-8 of R513: polynomial 0x07, most significant bit first. -/
def crc8Bit (c : Nat) : Nat := if 128 ≤ c then (2 * c % 256) ^^^ 7 else 2 * c
def crc8Byte (c : Nat) (x : Byte) : Nat := crc8Bit (crc8Bit (crc8Bit (crc8Bit (crc8Bit (crc8Bit (crc8Bit (crc8Bit (c ^^^ x.toNat))))))))
def crc8 (xs : List Byte) : Nat := xs.foldl crc8Byte 0

/-- The answer that the next private read gets: STATUS, the answer bytes, and their CRC. -/
def Block.mildomAnswer (b : Block) (status : Nat) (data : List Byte) : Block :=
  let m := BitVec.ofNat 8 status :: data
  { b with boot := { b.boot with answer := m ++ [BitVec.ofNat 8 (crc8 m)] } }

/-- A Mildom request (R513, R514, R516): not taken while the block has no address or its core restarts, no effect with a bad
CRC, BUSY during an image check. -/
def Block.mildom (b : Block) (request : List Byte) (crc : Nat) (go : Block → Block) : Block :=
  if b.boot.addr.isNone || b.boot.restarting || b.boot.coldHeld then b
  else if crc != crc8 request then b.mildomAnswer 1 []
  else if b.boot.checking then b.mildomAnswer 3 []
  else go b

/-- An image command outside the boot wait, or one that Table 14.2 does not allow (R514). -/
def Block.bootWait (b : Block) (ok : Bool) (go : Block → Block) : Block :=
  if b.bootStage != 3 || !ok then b.mildomAnswer 2 [] else (go b).mildomAnswer 0 []

/-- IMAGE_OFFER. -/
def Block.imageOffer (b : Block) (len crc : Nat) : Block :=
  b.mildom (BitVec.ofNat 8 3 :: toBytes 4 len) crc fun b => b.bootWait true fun b =>
    { b with boot := { b.boot with offer := some (len % 2 ^ 32), offered := [], offerOk := false } }

/-- IMAGE_DATA: what has been checked is no longer the image that is here. -/
def Block.imageData (b : Block) (off : Nat) (data : List Byte) (crc : Nat) : Block :=
  b.mildom (BitVec.ofNat 8 4 :: toBytes 4 off ++ data) crc fun b =>
    b.bootWait (b.boot.offer.isSome && !data.isEmpty && decide (data.length ≤ 256)) fun b =>
      { b with boot := { b.boot with offered := b.boot.offered ++ [(off % 2 ^ 32, data)], offerOk := false } }

/-- IMAGE_END, command 0x05: the check starts. A command byte outside Table 14.2 is BAD_COMMAND (R514). -/
def Block.imageEnd (b : Block) (q : MildomReq) : Block :=
  b.mildom (BitVec.ofNat 8 q.code :: q.data) q.crc fun b =>
    if q.code % 256 == 5 then b.bootWait b.boot.offer.isSome fun b =>
      ({ b with boot := { b.boot with checking := true } }).setRf (regAt 0x01 0x808) 63 63 0
    else b.mildomAnswer 2 []

/-- What a private read gets; none where it is NACKed: no answer is ready, or the core restarts (R513, R514, R516). -/
def Block.privateRead (b : Block) : Option (List Byte) :=
  if b.boot.addr.isNone || b.boot.restarting || b.boot.coldHeld || b.boot.answer.isEmpty then none else some b.boot.answer

/-- RESET (R515). -/
def Block.mildomReset (b : Block) (level crc : Nat) : Block :=
  b.mildom [BitVec.ofNat 8 6, BitVec.ofNat 8 level] crc fun b =>
    if level == 2 then (b.requestCompute 7).mildomAnswer 0 []
    else if level == 3 then (b.requestBlock 7).mildomAnswer 0 []
    else b.mildomAnswer 2 []

/-- ENTDAA (R516). -/
def Block.entdaa (b : Block) (addr : Nat) : Block :=
  if b.boot.coldHeld || b.boot.restarting then b else { b with boot := { b.boot with addr := some (addr % 128) } }

/-! ### JTAG (R517 to R519). Instructions are numbered in the order of R517 (DESIGN CHOICE, log entry 31). -/

/-- An instruction taken, with the data register that it selects. -/
def Block.jtag (b : Block) (ir dr : Nat) : Block := { b with boot := { b.boot with jtagIr := ir, jtagDr := dr } }

/-- IDCODE (R519). -/
def idcode : Nat := put 1 4 28 + put 0x5C6 16 12 + put Config.manufacturer.toNat 11 1 + 1

/-- SAMPLE/PRELOAD: the pins as sampled leave, and the boundary register is preloaded. -/
def Block.sample (b : Block) (sampled preload : Nat) : Block :=
  let b := b.jtag 2 sampled
  { b with boot := { b.boot with boundary := preload } }

/-- EXTEST and its two forms of IEEE 1149.6 (R518). -/
def Block.extest (b : Block) (ir : Nat) : Block :=
  let b := (b.jtag ir b.boot.boundary).holdDown
  { b with boot := { b.boot with extest := true } }

/-- Whether REG_ACCESS, FUSE_WRITE and MBIST are refused (R519). -/
def Block.jtagShut (b : Block) : Bool := b.keyRoot.isSome

/-- The one write of the variant code (R444, R545). -/
def Block.fuseWrite (b : Block) (code word_ : Nat) : Block :=
  if 2 < code then b.pageErr 0x01 2 word_
  else if b.boot.fuseVariant.isSome then b.pageErr 0x01 3 word_
  else
    let b := { b with boot := { b.boot with fuseVariant := some code } }
    (b.setRf wCode 8 8 0).setRf wCode 3 0 code

/-- The tables that the self-test leaves zero (§11.2, Table 11.4). -/
def Block.zeroTables (b : Block) : Block :=
  { b with
    segmap := [], segBad := [], ctrs := [], ctrBad := [], groups := [], groupBad := [],
    fwd := { b.fwd with groups := [], routes := [] }, fold := { b.fold with store := [], bad := [], staged := [] },
    rst := { b.rst with hold := [] } }

/-- The self-test leaves zero in the Hamper store: the copies that it holds are gone. Those in spill lie in host memory. -/
def Block.zeroHamper (b : Block) : Block :=
  (b.hampered.filter fun (_, x) => !x.spilled).foldl (fun b (p, x) => b.dropBranch p.id x.out) b

/-- A buffer's bytes all zero. -/
def zeroBytes (xs : List Byte) : List Byte := xs.map fun _ => 0

/-- The bytes of a unit that an engine holds are zero. -/
def Engine.zeroed (e : Engine) : Engine :=
  { e with held := e.held.map fun h => { h with landed := zeroBytes h.landed, sent := zeroBytes h.sent } }

/-- A flit held in the replay buffer is zero; one in spill lies in host memory. -/
def OutFlit.zeroed (f : OutFlit) : OutFlit := if f.spilled then f else { f with body := f.body.map fun _ => 0, echo := 0, hdrs := [] }

/-- What the self-test leaves in the engine buffers, the replay buffers and the management core's memory: zero (§11.2). -/
def Block.zeroBuffers (b : Block) : Block :=
  { b with
    mangle := { b.mangle with engines := b.mangle.engines.map Engine.zeroed },
    ports := b.ports.map fun q => { q with flits := q.flits.map OutFlit.zeroed },
    boot := { b.boot with staged := none, offered := [], offerOk := false, chunks := [], image := zeroBytes b.boot.image, starch := [] } }

/-- Ports whose replay buffer has failed are in DOWN (Table 11.4). -/
def Block.failedDown (b : Block) (port : Nat) : Block :=
  (List.range 6).foldl (fun b p => if bitN port p && (b.port p).st != 0 then b.toDown p 8 else b) b

/-- MBIST (R517, §11.2): step 2's self-test leaves zero in every on-block SRAM, and Table 11.4 applies at once: a port whose replay
buffer has failed goes down, and the patch map is published without what has failed (DEDUCED, log entry 42). -/
def Block.mbist (b : Block) (eng port : Nat) (other : Bool) : Block :=
  if b.jtagShut then b
  else ((((((b.jtag 8 0).zeroTables).zeroHamper).zeroBuffers).sramResult eng port other).failedDown port).republish

end Sys2Proof.Machine
end

