-- ==== Sys2Proof/Machine/RegRead.lean ====
section
/-!
DEFINITION. Reads of the register window: the page header, and every register whose fields the block works out when it is
read (chapters 2 to 15). Every other register reads as the word it holds.
-/

namespace Sys2Proof.Machine

/-! ### Page headers (Table 15.4) -/

/-- PAGE_ID of page `p`, whose range begins at page `k`. -/
def pageId (k p : Nat) : Word := word (put (0x80 + k) 8 56 + put (p - k) 8 48 + put 1 8 40 + put (kindDomain k).code 2 38)

/-- Whether a unit whose QUIESCE is set has drained (Table 15.4). -/
def Block.pageQuiesced (b : Block) (k p : Nat) : Bool :=
  if k == 0x30 then b.engineQuiesced (p - k) && b.engineState (p - k) == 2
  else if k == 0x20 then b.chanState (p - k) == 3
  else if k == 0x10 then b.drained (p - k) else false

/-- PAGE_STATUS. -/
def Block.pageStatus (b : Block) (k p : Nat) : Word :=
  word (put 1 1 63 + put (b2n (b.pageQuiesced k p)) 1 62 + put (b2n (k == 0x20 && b.chanState (p - k) == 0)) 1 61
    + put (b2n (b.rf (regAt p 0x018) 47 0 != 0)) 1 60)

/-! ### Link domain -/

/-- P*n*_LINK.STATE (Table 9.12). -/
def Block.linkState (b : Block) (p : Nat) : Word :=
  let q := b.port p
  word (put q.st 4 60 + put q.mode 2 58 + put q.version 8 50 + put q.cause 4 46 + put (b2n (b.drained p)) 1 45
    + put q.windowBad.length 32 0)

/-- P*n*_LINK.REPLAY_STATUS (Table 9.13). -/
def Block.replayStatus (b : Block) (p : Nat) : Word :=
  let q := b.port p
  word (put q.outstanding 20 40 + put (b.window p) 20 20 + put (q.flits.filter fun f => f.spilled).length 20 0)

/-- P*n*_LINK.SEQ (Table 9.13). -/
def Block.linkSeq (b : Block) (p : Nat) : Word :=
  let q := b.port p
  word (put q.n 20 40 + put q.o 20 20 + put q.e 20 0)

/-- P*n*_LINK.CREDIT for a side and a counter (Table 9.14): the receive side shows this end's allocation. -/
def Block.creditWord (b : Block) (p side i : Nat) : Word :=
  let q := b.port p
  if side == 0 then word (put (q.txLimit.getD i 0) 16 48 + put (q.txUsed.getD i 0) 24 24 + put (q.txBack.getD i 0) 24 0)
  else word (put (q.limits.getD i 0) 16 48 + put (q.rxUsed.getD i 0) 24 24 + put (q.rxBack.getD i 0) 24 0)

/-- P*n*_LANE.LANE_INFO of a lane (Table 10.14); 0 for the pilot lane and the reserved numbers. -/
def Block.laneInfo (b : Block) (p k : Nat) : Word :=
  match (b.lane p).lanes.drop k with
  | [] => 0
  | x :: _ => word (put x.fom 16 48 + put x.d 5 43 + put x.eh 8 35 + put (b2n x.inverted) 1 34 + put x.peerLane 4 30
      + put (b2n x.marker) 1 29)

/-- Reads of a link page that are worked out. -/
def Block.readLink (b : Block) (p o : Nat) : Option Word :=
  let sel := b.peek (lk p 0x078)
  if o == 0x040 then some (b.linkState p)
  else if o == 0x068 then some (b.replayStatus p)
  else if o == 0x070 then some (b.linkSeq p)
  else if o == 0x080 then some (b.creditWord p (fld sel 5 5) (fld sel 4 0)) else none

/-- Reads of a lane page that are worked out. -/
def Block.readLane (b : Block) (p o : Nat) : Option Word :=
  let sel := b.rf (ln p 0x058) 4 0
  if o == 0x060 then some (b.laneInfo p sel)
  else if o == 0x0A0 then some ((b.lane p).prbs.getD sel 0) else none

/-- A port's Hamper: KiB and packets held (Table 8.9). -/
def Block.hamperWord (b : Block) (p : Nat) : Word :=
  word (put (b.hamperKib p) 32 32 + put ((b.hampered.filter fun x => x.2.out == p).length) 32 0)

/-- Reads of the routing page that are worked out (Tables 8.8, 8.9). -/
def Block.readRoute (b : Block) (o : Nat) : Option Word :=
  let f := b.fwd
  let ix := b.peek (rt 0x058)
  if o == 0x040 then some (word (put f.current 1 63 + put f.other 2 61 + put f.switched 8 0))
  else if o == 0x050 then some (word (min (2 ^ 32 - 1) b.drainCount))
  else if o == 0x060 then some (word (Tbl.get 0 f.routes (fld ix 15 0)))
  else if o == 0x070 then some (b.groupEntry (b.rf (rt 0x068) 11 0))
  else if 0x090 ≤ o && o ≤ 0x0B8 then some (b.hamperWord ((o - 0x090) / 8)) else none

/-! ### Compute domain -/

/-- HC*n*.STATUS (Table 7.12). -/
def Block.chanStatus (b : Block) (n : Nat) : Word :=
  word (put (b.chanState n) 4 60 + put ((b.servedBy n).getD n) 4 36 + put (b.tagsBusy n) 11 22 + put (b.beatsFree n) 11 11
    + put (b.locks n) 6 5)

/-- HC*n*.LATENCY (Table 7.12). -/
def Block.chanLatency (b : Block) (n : Nat) : Word :=
  word (put ((b.host.lat.getD n {}).mean) 32 32 + put (b.rf (hc n 0x0A0) 31 0) 32 0)

/-- Reads of a host-channel page that are worked out. -/
def Block.readHc (b : Block) (n o : Nat) : Option Word :=
  if o == 0x040 then some (b.chanStatus n) else if o == 0x0A0 then some (b.chanLatency n) else none

/-- MANGLE*n*.STATUS (Table 5.13). -/
def Block.engineStatus (b : Block) (e : Nat) : Word :=
  word (put (((b.engine e).held.map fun h => h.unit.path).getD 0) 8 8 + put (b.engineState e) 4 4 + put (b2n (b.engineGood e)) 1 0)

/-- Reads of a Mangle page that are worked out. -/
def Block.readMangle (b : Block) (e o : Nat) : Option Word :=
  if o == 0x040 then some (b.engineStatus e)
  else if e == 0 && o == 0x908 then some (Tbl.get ({} : Gen) b.mangle.gens (b.rf (mg 0 0x900) 7 0)).seed else none

/-- FOLD.STREAM_STATE of a stream (Table 6.10). -/
def Block.streamState (b : Block) (s : Nat) : Word :=
  let p := b.prog s
  word (put p.st.code 4 60 + put p.cause 4 56 + put p.pc 14 42 + put p.stopPc 14 28)

/-- A per-stream counter with its sticky bit (R253). -/
def Block.streamCounter (b : Block) (s k : Nat) : Word :=
  let c := Tbl.get 0 b.fold.ctrs (4 * s + k)
  word (put (b2n (c == 2 ^ 48 - 1)) 1 48 + put c 48 0)

/-- Reads of the FOLD page that are worked out (Tables 6.9 to 6.11). -/
def Block.readFold (b : Block) (o : Nat) : Option Word :=
  let s := b.rf (fo 0x138) 7 0
  let p := b.prog s
  let wait := p.st = .wait
  if o == 0x110 then some (word (put ((b.spillBytes + 1023) / 1024) 32 32 + put b.stageBytes 32 0))
  else if o == 0x140 then some (b.streamState s)
  else if o == 0x148 then some p.loops
  else if o == 0x150 then some (word (put (b2n wait) 1 63 + put p.waitCtr 16 0))
  else if o == 0x158 then some p.waitTgt
  else if 0x160 ≤ o && o ≤ 0x178 then some (b.streamCounter s ((o - 0x160) / 8))
  else if o == 0x188 then some (p.a.getD (b.rf (fo 0x180) 5 0) 0) else none

/-- Reads of a program-store window that are worked out (R254). -/
def Block.readPstore (b : Block) (w o : Nat) : Option Word :=
  if o == 0x048 then some (word (b.instr (b.rf (regAt (0x41 + w) 0x040) 13 0)).toNat)
  else if o == 0x050 then some (b.fold.latch.getD w 0) else none

/-- DERIVE_OUT for the current DERIVE_IN (R60, Table 2.15). -/
def Block.deriveOut (b : Block) : Word :=
  let d := b.peek (sg 0x088)
  word (fld d 15 0 ^^^ b.fKey (fld d 30 16) (fld d 43 32))

/-- Reads of the Segment Map page that are worked out; an entry of a bank that is not good reads as zero (R50). -/
def Block.readSegmap (b : Block) (o : Nat) : Option Word :=
  let i := b.rf (sg 0x040) 19 0
  if o == 0x048 then some (if b.bankGood i then b.seg i else 0)
  else if o == 0x078 then some 0
  else if o == 0x090 then some b.deriveOut else none

/-- Reads of the counter page that are worked out (Table 4.8). -/
def Block.readCtr (b : Block) (o : Nat) : Option Word :=
  let n := b.rf (ct 0x040) 15 0
  if o == 0x048 then some (b.ctrVal n)
  else if o == 0x058 then some (word (put (fld (Tbl.get 0 b.groups (n / 64)) 63 63) 1 1 + put (b2n (b.ctrBad.contains n)) 1 0))
  else if o == 0x068 then some (Tbl.get 0 b.groups (b.rf (ct 0x060) 9 0)) else none

/-- Commands admitted and not complete of a context (Table 12.11). -/
def Block.admitted (b : Block) (c : Nat) : Nat := (b.req.cmds.filter fun k => !k.ofFold && k.ctx == c).length

/-- Enabled streams of a context. -/
def Block.ctxStreams (b : Block) (c : Nat) : Nat :=
  ((List.range 256).filter fun s => b.enabled s && (b.stream s).ready && b.streamCtx s == c).length

/-- CTXT.ENTRY of a context (Table 12.11): ACTIVE while a stream or a command of it is there. -/
def Block.ctxEntry (b : Block) (c : Nat) : Word :=
  let h := Tbl.get 0 b.rst.hold c
  let n := b.ctxStreams c
  let k := b.admitted c
  let st := if b.inRinse c then 2 else if n == 0 && k == 0 then 0 else 1
  word (put st 2 62 + put (fld h 1 1) 1 61 + put (fld h 0 0) 1 60 + put n 9 40 + put k 14 0)

/-- Contexts with SUSPECT set, in rising order. -/
def Block.suspects (b : Block) : List Nat := (b.rst.hold.filter fun x => bit x.2 1).map (·.1)

/-- Reads of the context page that are worked out (Table 12.11). -/
def Block.readCtxt (b : Block) (o : Nat) : Option Word :=
  if o == 0x048 then some (b.ctxEntry (b.rf (cx 0x040) 11 0))
  else if o == 0x050 then some (setFld (b.peek (cx 0x050)) 62 62 (b.rf (rs 0x098) 63 63))
  else if o == 0x060 then some (word (put (b.suspects.head?.getD 0) 12 40 + put b.suspects.length 13 0)) else none

/-! ### Management domain, time and counters -/

/-- VARIANT.STARTUP with the fields that TIME.STATUS holds (Table 11.3). -/
def Block.startupWord (b : Block) : Word :=
  let t := b.peek wTimeStatus
  setFld (setFld (setFld (b.peek wStartup) 55 55 (fld t 63 63)) 54 52 (fld t 60 58)) 51 44 (fld t 57 50)

/-- Reads of the time page that are worked out (Table 13.9). -/
def Block.readTime (b : Block) (o : Nat) : Option Word :=
  if o == 0x040 then some (word b.time.now) else if o == 0x048 then some (word (put b.time.tick 48 0))
  else if o == 0x050 then b.time.periodDue.map word else none

/-- Reads of page 0x7C: the counters of the port and class that CTRS.SEL names (R487). -/
def Block.readCtrs (b : Block) (o : Nat) : Option Word :=
  let sel := b.peek (cn 0x048)
  if 0x060 ≤ o && o ≤ 0x080 then some (Tbl.get 0 b.obs.pc (pcKey (fld sel 6 4) (fld sel 2 0) ((o - 0x060) / 8))) else none

/-! ### A read of the window (R284, R420, R531) -/

/-- What the block works out for offset `o` of page `p`, whose range begins at page `k`; none where the word it holds is
read. -/
def Block.readWorked (b : Block) (k p o : Nat) : Option Word :=
  if o == 0x000 then some (pageId k p)
  else if o == 0x008 then some (b.pageStatus k p)
  else match k with
    | 0x01 => if o == 0x800 then some b.startupWord else none
    | 0x03 => b.readTime o
    | 0x10 => b.readLink (p - k) o
    | 0x18 => b.readLane (p - k) o
    | 0x20 => b.readHc (p - k) o
    | 0x30 => b.readMangle (p - k) o
    | 0x40 => b.readFold o
    | 0x41 => b.readPstore (p - k) o
    | 0x50 => b.readRoute o
    | 0x58 => b.readSegmap o
    | 0x60 => b.readCtr o
    | 0x70 => b.readCtxt o
    | 0x7C => b.readCtrs o
    | _ => none

/-- A read of the register at window word `w`: zero on unused pages and reserved offsets, and on a compute-domain page
while the domain is down (R284, R420). -/
def Block.regRead (b : Block) (w : Nat) : Word :=
  match pageKind (w / 512) with
  | none => 0
  | some k =>
    if kindDomain k = .compute && b.rst.down then 0
    else (b.readWorked k (w / 512) (w % 512 * 8)).getD (b.peek w)

/-! ### Index advance (R548) -/

/-- INDEX in `[hi:0]` of an index register advances, wrapping, while AUTO_INC is 1; other bits stay. -/
def Block.autoInc (b : Block) (w hi : Nat) : Block :=
  if bit (b.peek w) 63 then b.setRf w hi 0 (b.rf w hi 0 + 1) else b

/-- What a read does besides answering (R254, R548): the index advances, and a LOW read latches HIGH. -/
def Block.afterRead (b : Block) (w : Nat) : Block :=
  let p := w / 512
  let o := w % 512 * 8
  if b.rst.down && wordDomain w = some .compute then b
  else if w == sg 0x048 then b.autoInc (sg 0x040) 19
  else if w == ct 0x048 then b.autoInc (ct 0x040) 15
  else if w == rt 0x060 then b.autoInc (rt 0x058) 14
  else if w == cx 0x048 then b.autoInc (cx 0x040) 11
  else if pageKind p == some 0x41 && o == 0x048 then
    let i := b.instr (b.rf (regAt p 0x040) 13 0)
    { b with fold := { b.fold with latch := b.fold.latch.set (p - 0x41) (word (i.toNat / 2 ^ 64)) } }
  else if pageKind p == some 0x41 && o == 0x050 then b.autoInc (regAt p 0x040) 13
  else b

/-- What the DARN check finds as an access reads a counter's word (R159): a read of CTR.VALUE, a write of CTR.ADD. -/
def Block.regFind (b : Block) (write : Bool) (w : Nat) (d : Darn) : Block :=
  if b.up && w == ct (if write then 0x050 else 0x048) then b.ctrFind (b.rf (ct 0x040) 15 0) d else b

/-- A read of the window with all it does: the block after it, and the word. -/
def Block.readReg (b : Block) (w : Nat) (d : Darn) : Block × Word :=
  let b := b.regFind false w d
  (b.afterRead w, b.regRead w)

/-! ### The register port (R281 to R284) -/

/-- Even parity of byte `k` of a number: 1 where it has an odd number of ones. -/
def parityOf (n k : Nat) : Nat := popCount 8 (n / 2 ^ (8 * k)) % 2

/-- RP_WCHK of a request (R281): bit `k` over byte `k` of RP_WDATA and byte `k` mod 2 of RP_ADDR. -/
def rpCheck (addr : Nat) (v : Word) : Nat :=
  ((List.range 8).map fun k => (parityOf v.toNat k + parityOf addr (k % 2)) % 2 * 2 ^ k).sum

/-- RP_RCHK of an answer (R281): bit `k` over byte `k` of RP_RDATA. -/
def rpRchk (v : Word) : Nat := ((List.range 8).map fun k => parityOf v.toNat k * 2 ^ k).sum

/-- An access is answered (R281, R282). -/
def Block.answer (b : Block) (v : Word) (err : Bool) : Block :=
  { b with rp := { rdata := v, rchk := rpRchk v, err, acks := b.rp.acks + 1 } }

/-- An access by the register port (R281, R284): what `go` does and answers, or, where the request fails its parity check, nothing but
RP_ERR and its count. -/
def Block.rpAccess (b : Block) (w : Nat) (v : Word) (wchk : Nat) (go : Block → Block × Word) : Block :=
  if wchk % 256 == rpCheck (w % 65536) v then (go b).1.answer (go b).2 false else (b.pageErr 0x7F 6 0).answer 0 true

/-- A read by the register port: the word is its answer (R282). -/
def Block.portRead (b : Block) (w : Nat) (d : Darn) (wdata : Word) (wchk : Nat) : Block := b.rpAccess w wdata wchk fun b => b.readReg w d

end Sys2Proof.Machine
end

