-- ==== Sys2Proof/Machine/RegWrite.lean ====
section
/-!
DEFINITION. Writes of the register window: who may write, what is refused, and what each write does (chapters 2 to 15).
-/

namespace Sys2Proof.Machine

/-! ### Who may write (R20, R284, R420, R532, R538) -/

/-- Whether a window word is a register, of a page's header or of its tables. -/
def isReg (w : Nat) : Bool :=
  (pageKind (w / 512)).isSome && ((regDef w).isSome || [0, 1, 3].contains (w % 512))

/-- A write refused by a rule of its page (Table 15.4, kind 0x2). -/
def Block.refuse (b : Block) (w : Nat) : Block := b.pageErr (w / 512) 2 (w % 512)

/-- A write that `go` may take up: not of a reserved offset, nor of a compute-domain page while the domain is down; one
without privilege is ignored and counted unless `any` writer may write the register. -/
def Block.gate (b : Block) (any priv : Bool) (w : Nat) (go : Block → Block) : Block :=
  if !(isReg w) || (b.rst.down && wordDomain w = some .compute) then b
  else if any || priv then go b
  else b.pageErr (w / 512) 1 (w % 512)

/-- A register's fields replaced: those a write sets, and those that a written 1 clears. -/
def Block.store (b : Block) (w : Nat) (v : Word) : Block :=
  match regDef w with
  | none => b
  | some d =>
    let old := b.peek w
    b.poke w (((old &&& ~~~(word d.rw)) ||| (v &&& word d.rw)) &&& ~~~(v &&& word d.w1c))

/-- A field of a word clamped between two ends. -/
def clampFld (v : Word) (hi lo a z : Nat) : Word := setFld v hi lo (max a (min z (fld v hi lo)))

/-- A write stored where `ok` holds, refused otherwise. -/
def Block.storeIf (b : Block) (ok : Bool) (w : Nat) (v : Word) : Block := if ok then b.store w v else b.refuse w

/-- Whether SIZE of a ring is 0 or within its bounds (R129, Tables 8.10, 13.10 to 13.12). -/
def sizeOk (v : Word) (lo hi : Nat) : Bool := fld v 3 0 == 0 || (decide (lo ≤ fld v 3 0) && decide (fld v 3 0 ≤ hi))

/-! ### Segment Map (R50, R55, R59, R66, R74, R78) -/

/-- Whether the scratchpad range holds a host address (R78). -/
def Block.inScratch (b : Block) (a : Nat) : Bool :=
  let lo := b.rf (sg 0x060) 51 21
  let hi := b.rf (sg 0x068) 51 21
  decide (lo < hi) && decide (lo ≤ a / 2 ^ 21) && decide (a / 2 ^ 21 < hi)

/-- Whether R50 or R55 refuses an entry. -/
def Block.segRefused (b : Block) (i : Nat) (v : Word) : Bool :=
  let a := b.hpa v 0
  !(b.bankGood i) || (bit v 63 && (fld v 62 61 == 3 || (fld v 62 61 == 1 && !(b.inScratch a)) || (fld v 62 61 == 0 && b.inScratch a)))

/-- SEGMAP.ENTRY written (R55, R66, R72, R548). -/
def Block.segmapWrite (b : Block) (v : Word) : Block :=
  let i := b.rf (sg 0x040) 19 0
  let b' :=
    if b.segRefused i v then b.refuse (sg 0x048)
    else
      let bad := b.segBad.contains (segWord i)
      let off := fun (j : Nat) (x : Word) => if segWord j == segWord i then setFld x 63 63 0 else x
      let old := if bad then Tbl.remap (fun _ => 0) off b.segmap else b.segmap
      let b := { b with segmap := Tbl.set 0 old i v, segBad := b.segBad.filter (· != segWord i) }
      if bad then b.pageErrN 0x58 5 9 3 else b
  b'.autoInc (sg 0x040) 19

/-- Whether an access reads or writes local host memory under an entry of this chip (R97). -/
def JobKind.local_ : JobKind → Bool
  | .source .. | .residual .. | .residualWrite _ | .localLand .. | .foldArgs _ | .foldIndex .. | .passRead .. | .passAhead .. | .passLand .. => true
  | _ => false

/-- What a fence that starts now waits for (R74): packets taken up whose checks passed (numbered 3·id), local accesses
(3·id + 1), and commands that have touched a granule of this chip's window and go on under the entry they read (3·id + 2; DEDUCED,
log entry 36). -/
def Block.fenceSet (b : Block) : List Nat :=
  ((b.dest.pkts.filter fun p => p.status == 0 || !p.done).map fun p => 3 * p.id)
  ++ ((b.host.jobs.filter fun j => j.kind.local_).map fun j => 3 * j.id + 1)
  ++ ((b.req.cmds.filter fun c => !c.granules.isEmpty).map fun c => 3 * c.id + 2)

/-- SEGMAP.FENCE written (R74, R75). -/
def Block.segFenceWrite (b : Block) (v : Word) : Block :=
  if !(bit v 0) then b
  else
    let more := b.fenceSet.filter fun x => !(b.segFence.contains x)
    ({ b with segFence := b.segFence ++ more }).setRf (sg 0x050) 63 63 0

/-- Whether something that a fence waits for has not finished. -/
def Block.fenceOpen (b : Block) (x : Nat) : Bool :=
  match x % 3 with
  | 0 => b.dest.pkts.any fun p => p.id == x / 3
  | 1 => b.host.jobs.any fun j => j.id == x / 3
  | _ => b.req.cmds.any fun c => c.id == x / 3

/-- FENCE.DONE sets once all of it has finished (R74). -/
def Block.segFenceDone (b : Block) : Block :=
  if b.rf (sg 0x050) 63 63 == 1 || b.segFence.any b.fenceOpen then b
  else ({ b with segFence := [] }).setRf (sg 0x050) 63 63 1

/-- SEGMAP.KEY_ROOT written: the first write is kept (R20, R59). -/
def Block.keyRootWrite (b : Block) (v : Word) : Block :=
  match b.keyRoot with
  | some _ => b.pageErr 0x58 3 15
  | none => ({ b with keyRoot := some v }).setRf (sg 0x080) 0 0 0

/-! ### Counters (R68, R157, R159, R175, R176) -/

/-- CTR.VALUE written: the value replaced, POISONED cleared (R159, R175, R548). -/
def Block.ctrValueWrite (b : Block) (v : Word) : Block :=
  let n := b.rf (ct 0x040) 15 0
  let b := { b with ctrBad := b.ctrBad.filter (· != n) }
  (b.ctrChange n fun _ => v).autoInc (ct 0x040) 15

/-- CTR.ADD written (R159, R175); `d` is what the check of the counter finds. -/
def Block.ctrAddWrite (b : Block) (v : Word) (d : Darn) : Block := (b.regFind true (ct 0x050) d).ctrChange (b.rf (ct 0x040) 15 0) (· + v)

/-- Fields of a counter group entry (Table 2.9). -/
def groupMask : Word := word (mask 63 63 + mask 60 59 + mask 56 29)

/-- CTR.GROUP_ENTRY written (R68): a new entry replaces one that held an uncorrectable error. -/
def Block.ctrGroupWrite (b : Block) (v : Word) : Block :=
  let g := b.rf (ct 0x060) 9 0
  { b with groups := Tbl.set 0 b.groups g (v &&& groupMask), groupBad := b.groupBad.filter (· != g) }

/-- CTR.FENCE written (R176): class 0x1 requests are done when they are checked, so the fence waits for the mirror
writes that are due (numbered by counter) or under way (65536 + access). -/
def Block.ctrFenceWrite (b : Block) (v : Word) : Block :=
  if !(bit v 0) then b
  else
    let due := b.mirrorDue ++ (b.host.jobs.filter fun j => (match j.kind with | .mirror _ => true | _ => false)).map fun j => 65536 + j.id
    let more := due.filter fun x => !(b.ctrFence.contains x)
    ({ b with ctrFence := b.ctrFence ++ more }).setRf (ct 0x070) 63 63 0

/-- The pending mirror write of a counter is issued (R157): the value that the counter holds now; a counter that has become
poisoned, as the check `d` may find now, or whose group's mirror is off, writes nothing (R159). A fence that waits for it waits for
its acceptance. -/
def Block.mirrorWrite (b : Block) (n : Nat) (d : Darn) : Block :=
  if !(b.mirrorDue.contains n) || !b.up then b
  else
    let b := { b with mirrorDue := b.mirrorDue.filter (· != n) }.ctrFind n d
    let waits := b.ctrFence.contains n
    let rest := b.ctrFence.filter (· != n)
    if b.ctrBad.contains n || !(b.mirrored n) then { b with ctrFence := rest }
    else
      let id := b.host.nextJob
      let b := { b with ctrFence := if waits then rest ++ [65536 + id] else rest }
      b.hwrite true 0 (b.rf (ct 0x078) 51 19 * 2 ^ 19 + 8 * n) (toBytes 8 (b.ctrVal n).toNat) (.mirror n)

/-- CTR.FENCE.DONE sets once every mirror write that the fence waits for has been accepted (R176). -/
def Block.ctrFenceDone (b : Block) : Block :=
  let open_ := fun (x : Nat) => if x < 65536 then b.mirrorDue.contains x else b.host.jobs.any fun j => j.id == x - 65536
  if b.rf (ct 0x070) 63 63 == 1 || b.ctrFence.any open_ then b
  else ({ b with ctrFence := [] }).setRf (ct 0x070) 63 63 1

/-! ### Mangle engines (R188, R197, R211, R212) -/

/-- PROFILE*p* written (R188). -/
def Block.profileWrite (b : Block) (p : Nat) (v : Word) : Block :=
  b.storeIf (!(bit v 63 && profileRefused (profileOf v.toNat 0))) (mg 0 (0x800 + 8 * p)) v

/-- MANGLE0.SEED written (R197). -/
def Block.seedWrite (b : Block) (v : Word) : Block :=
  { b with mangle := { b.mangle with gens := Tbl.set ({} : Gen) b.mangle.gens (b.rf (mg 0 0x900) 7 0) { seed := v, pos := 0 } } }

/-- PAGE_CONTROL of a Mangle page (R211). -/
def Block.engineControl (b : Block) (e : Nat) (v : Word) : Block :=
  (b.tracing fun b => b.store (mg e 0x010) v).dispatchAll

/-- UCODE_LOAD written (R211, R212): with REQUEST, refused unless STATE is 0x2 or 0x5. -/
def Block.ucodeLoad (b : Block) (e : Nat) (v : Word) : Block :=
  let w := mg e 0x078
  if !(bit v 0) then b.store w v
  else if b.engineState e != 2 && b.engineState e != 5 then b.refuse w
  else
    let b := ((b.store w v).setRf w 63 63 0).setRf w 62 62 0
    let b := b.setEngine e fun g => { g with loading := true, image := [], imageRead := false, imageBad := false }
    b.hread true 0 (b.ucBase e) 512 (.ucImage e false)

/-- Check and known-answer run of a microcode load have ended (R212, R440, R442). `digest` and `sig` are the outcomes of
the checks against the vendor key, `ok` that of the run. -/
def Block.ucodeLoadDone (b : Block) (e : Nat) (digest sig ok : Bool) : Block :=
  let g := b.engine e
  let w := mg e 0x078
  if !g.loading || !g.imageRead then b
  else
    let b := b.setRf w 63 63 1
    let stop := fun (x : Engine) => { x with loading := false, image := [], imageRead := false, imageBad := false }
    if b.imageCode 2 g.image g.imageBad digest sig != 0 then ((b.setEngine e stop).setRf w 62 62 1).republish.dispatchAll
    else
      let f := if !ok then b.boot.failed ||| 2 ^ e
        else if bitN b.boot.failed e && !(bitN b.boot.sramFailed e) then b.boot.failed - 2 ^ e else b.boot.failed
      let b := b.setRf (mg e 0x070) 31 0 (imageVersion g.image)
      let ucode := b.boot.ucode.set e (imageVersion g.image)
      let b := ({ b with boot := { b.boot with failed := f, ucode } }).setEngine e fun x => { stop x with failed := !ok }
      b.republish.dispatchAll

/-! ### Host channels (R277, R279, R280, R537) -/

/-- PAGE_CONTROL of a host channel (R280, R537). -/
def Block.chanControl (b : Block) (n : Nat) (v : Word) : Block :=
  let others := (List.range 12).any fun k => k != n && b.rf (hc k 0x010) 0 0 == 1
  if !(bit v 0) && !others then b.refuse (hc n 0x010) else (b.store (hc n 0x010) v).hostPump.dispatchAll.reqPump

/-- Whether every channel is quiesced or disabled (R279). -/
def Block.chansQuiet (b : Block) : Bool :=
  (List.range 12).all fun n => b.chanState n == 3 || b.chanState n == 0

/-- INTERLEAVE, MAP0–3 or HOST_CAPS written (R279, R542). -/
def Block.mapWrite (b : Block) (o : Nat) (v : Word) : Block :=
  let w := hc 0 o
  let ok := if o == 0x800 then decide (12 ≤ fld v 4 0) && decide (fld v 4 0 ≤ 21)
    else if o == 0x828 then true
    else (List.range 16).all fun i => decide (fld v (4 * i + 3) (4 * i) ≤ 11)
  if !(b.chansQuiet && ok) then b.refuse w
  else if o == 0x828 then (b.store w v).offer else b.store w v

/-- HC0.KB_MARK written: the kernel-boundary command (R277). -/
def Block.kernelBoundary (b : Block) (v : Word) (d : Darn) : Block :=
  if !(bit v 0) then b
  else
    let b := b.bump (hc 0 0x848)
    if b.rf (hc 0 0x838) 63 63 == 1 then
      let n := b.rf (hc 0 0x838) 15 0
      (if n == 0 then b else b.ctrFind n d).ctrAdvance n 1
    else b

/-! ### The FOLD page and the program store (R85, R87, R88, R220, R221, R254) -/

/-- FOLD.STREAM_ENABLE*k* written (R85, R447): bits that rise enable streams, bits that fall disable them. -/
def Block.streamEnable (b : Block) (k : Nat) (v : Word) : Block :=
  let old := b.peek (fo (0x048 + 8 * k))
  let up := (List.range 64).filter fun i => bit v i && !(bit old i)
  let off := (List.range 64).filter fun i => bit old i && !(bit v i)
  let b := off.foldl (fun b i => b.disableStream (64 * k + i)) b
  let b := ((List.range 64).filter fun i => !(bit v i)).foldl (fun b i => b.setStream (64 * k + i) fun x => { x with asking := none }) b
  let write := b.host.nextJob + 1
  let b := (up.filter fun i => (b.stream (64 * k + i)).asking.isNone).foldl (fun b i => b.enableStream (64 * k + i) write) b
  if up.isEmpty then b else b.step10

/-- FOLD.DOORBELL*s* written (R87, R88). -/
def Block.doorbell (b : Block) (s : Nat) (v : Word) : Block :=
  let b := b.setStream s fun x => { x with asking := x.asking.map fun k => { k with rung := true } }
  if (b.stream s).ready && !(b.doorbellOk s v) then b.doorbellBad s v
  else Block.fetch 64 (b.poke (fo (0x800 + 8 * s)) (v &&& word (mask 31 0))) s

/-- Whether a running program's counter is in a region of the program store (R221). -/
def Block.regionBusy (b : Block) (g : Nat) : Bool := b.fold.progs.any fun p => p.cmd != 0 && p.pc / 1024 == g

/-- FOLD.PSTORE_LOCK written (R221). -/
def Block.pstoreLock (b : Block) (v : Word) : Block :=
  let w := fo 0x100
  (List.range 16).foldl (fun b g =>
    if bit v g then (b.setRf w g g 1).setRf w (16 + g) (16 + g) 0
    else if !(bit (b.peek w) g) then b
    else if b.regionBusy g then b.setRf w (16 + g) (16 + g) 1
    else (b.setRf w g g 0).setRf w (16 + g) (16 + g) 0) b

/-- A pending clear takes effect (R221). -/
def Block.lockClears (b : Block) (g : Nat) : Block :=
  let w := fo 0x100
  if decide (g < 16) && bit (b.peek w) (16 + g) && !(b.regionBusy g) then (b.setRf w g g 0).setRf w (16 + g) (16 + g) 0 else b

/-- PSTORE*w*.HIGH written (R220, R223, R254): LOW and HIGH are stored as one instruction. -/
def Block.pstoreHigh (b : Block) (x : Nat) (v : Word) : Block :=
  let p := 0x41 + x
  let i := b.rf (regAt p 0x040) 13 0
  let b' := if bit (b.peek (fo 0x100)) (i / 1024) then b.refuse (regAt p 0x050)
    else
      let instr : Slot := BitVec.ofNat 128 ((b.peek (regAt p 0x048)).toNat + v.toNat * 2 ^ 64)
      { b with fold := { b.fold with store := Tbl.set 0 b.fold.store i instr, bad := b.fold.bad.filter (· != i) } }
  b'.autoInc (regAt p 0x040) 13

/-! ### Routing (R303, R306, R313, R320, R321) -/

/-- ROUTE.ENTRY written (R303, R548). -/
def Block.routeWrite (b : Block) (v : Word) : Block :=
  let ix := b.peek (rt 0x058)
  let mode := fld v 7 6
  let port := fld v 2 0
  let bad := mode == 3 || (mode == 1 && (decide (5 < port) || b.axisLen (port / 2) == 1))
    || fld ix 15 15 == b.fwd.current || b.fwd.other != 0
  let e := fld v 7 6 * 64 + port
  (if bad then b.refuse (rt 0x060)
   else { b with fwd := { b.fwd with routes := Tbl.set 0 b.fwd.routes (fld ix 15 0) e } }).autoInc (rt 0x058) 14

/-- ROUTE.SWITCH_TICK written (R306). -/
def Block.switchTick (b : Block) (v : Word) : Block :=
  if b.fwd.other != 0 || fld v 47 0 < b.time.tick + 2 then b.refuse (rt 0x048)
  else { b.store (rt 0x048) v with fwd := { b.fwd with other := 1 } }

/-- ROUTE.GROUP_ENTRY written (R313, Table 8.4). -/
def Block.mcGroupWrite (b : Block) (v : Word) : Block :=
  let out := (List.range 3).any fun x => decide (b.axisLen x ≤ geLo v x) || decide (b.axisLen x ≤ geHi v x)
  if bit v 63 && out then b.refuse (rt 0x070)
  else { b with fwd := { b.fwd with groups := Tbl.set 0 b.fwd.groups (b.rf (rt 0x068) 11 0) (v &&& word (mask 63 63 + mask 29 0)) } }

/-- ROUTE.HAMPER_LIMITS written (R320). -/
def Block.hamperLimits (b : Block) (v : Word) : Block :=
  if fld v 15 8 ≤ fld v 7 0 then b.refuse (rt 0x080) else (b.store (rt 0x080) v).hamperCheck

/-- ROUTE.HAMPER_FLUSH written (R321). -/
def Block.flushWrite (b : Block) (v : Word) : Block :=
  if bit (b.peek (rt 0x088)) 35 then b.refuse (rt 0x088) else b.hamperFlush v

/-! ### Links and lanes (R367, R371 to R373, R396, R399, R408) -/

/-- P*n*_LINK.CONTROL written (R371). -/
def Block.linkControl (b : Block) (p : Nat) (v : Word) : Block :=
  let n := fld v 63 63 + fld v 62 62 + fld v 61 61
  if 1 < n then b.refuse (lk p 0x048)
  else
    let b := b.store (lk p 0x048) v
    if bit v 63 then b.toDown p 8 else if bit v 62 then b.retrain p else if bit v 61 then b.release p else b

/-- P*n*_LINK.CREDIT written (R372): LIMIT of the receive side. -/
def Block.creditWrite (b : Block) (p : Nat) (v : Word) : Block :=
  let sel := b.peek (lk p 0x078)
  let i := fld sel 4 0
  let q := b.port p
  let lim := q.limits.set i (fld v 63 48)
  let sum := fun (odd : Nat) => ((List.range 16).map fun k => lim.getD (2 * k + odd) 0).sum
  if fld sel 5 5 == 0 then b
  else if 2048 < sum 0 || 65536 < sum 1 || (decide (28 ≤ i) && fld v 63 48 != 0) then b.refuse (lk p 0x080)
  else b.setPort p fun x => { x with limits := lim }

/-- P*n*_LINK.CLASS_SHARE written (R373). -/
def Block.shareWrite (b : Block) (p : Nat) (v : Word) : Block :=
  let sum := ((List.range 8).map fun c => fld v (8 * c + 7) (8 * c)).sum
  b.storeIf (decide (sum ≤ 256) && fld v 63 56 == 0) (lk p 0x0E8) v

/-- P*n*_LANE.BITSLIP written (R396). -/
def Block.bitslipWrite (b : Block) (p : Nat) (v : Word) : Block :=
  if b.bitslipOk p v && !(bit (b.peek (ln p 0x068)) 63) then b.bitslip p v else b.refuse (ln p 0x068)

/-- A test begins: each lane's pattern starts, or, in mission framing, the framing of MODE_SEL (R405, R406). -/
def LaneSt.startTest (l : LaneSt) (v : Word) : LaneSt :=
  let seeds := (List.range 16).map (Config.prbsSeed (fld v 60 59))
  let l := { l with gen := seeds, chk := seeds }
  if bit v 56 then { l with tx := Framer.fresh (fld v 55 54), rx := Deframer.fresh (fld v 55 54) }
  else { l with rx := { lanes := List.replicate 16 { scr := 0 } } }

/-- P*n*_LANE.TEST written (R408); a reserved MODE is refused (DESIGN CHOICE, log entry 34). A RATE above the fused limit runs at it and sets
CLAMPED (R8, R377). -/
def Block.testWrite (b : Block) (p : Nat) (v : Word) : Block :=
  let st := (b.port p).st
  if fld v 63 61 == 0 then b.store (ln p 0x098) v
  else if 4 < fld v 63 61 || (st != 0 && st != 3) then b.refuse (ln p 0x098)
  else
    let fast := fld v 58 57 == 2 && !(bitN b.fusedRates 2)
    let v := if fast then setFld v 58 57 1 else v
    let b := if fast then b.setRf wClock 35 35 1 else b
    (b.store (ln p 0x098) v).setLane p fun l => l.startTest v

/-! ### Contexts and resets (R451 to R453, R458, R464, R469) -/

/-- CTXT.ENTRY written (R451, R473, R548). -/
def Block.ctxWrite (b : Block) (v : Word) : Block :=
  let c := b.rf (cx 0x040) 11 0
  let h := setFld (Tbl.get 0 b.rst.hold c) 0 0 (fld v 60 60)
  let h := if bit v 61 then setFld h 1 1 0 else h
  ({ b with rst := { b.rst with hold := Tbl.set 0 b.rst.hold c h } }).autoInc (cx 0x040) 11

/-- CTXT.RINSE written (R453). -/
def Block.rinseWrite (b : Block) (v : Word) : Block :=
  let w := cx 0x050
  if b.rf w 63 63 == 0 then b.refuse w
  else if !(bit v 12) then b.store w v
  else
    let b := ((b.store w v).setRf w 63 63 0).setRf w 61 61 0
    { b with rst := { b.rst with rinseDue := some (fld v 11 0), rinseStart := b.time.tick } }

/-- CTXT.SOLO written (R452). -/
def Block.soloWrite (b : Block) (v : Word) : Block := ((b.store (cx 0x058) v).setRf (cx 0x058) 62 62 0).soloCheck

/-- RESET.REQUEST written (R458, R459, R464, R476); RELEASE counts with LEVEL 0 alone (Table 12.12). -/
def Block.resetRequest (b : Block) (v : Word) : Block :=
  match fld v 63 61 with
  | 0 => if bit v 60 then b.releaseReset else b
  | 1 => if 12 < fld v 3 0 then b.resetRefused else b.requestEngine (fld v 3 0) 1
  | 2 => b.requestCompute 1
  | 3 => b.requestBlock 1
  | _ => b.resetRefused

/-- RESET.CONTROL written: a block held for HOLD_AFTER goes on once that is 0 (R464). -/
def Block.resetControl (b : Block) (v : Word) : Block :=
  let b := b.store (rs 0x050) v
  if b.phase == 4 && !(bit (b.peek (rs 0x050)) 63) then b.restartCompute else b

/-- RESET.WATCHDOG written: PERIOD_MS, clamped; a KICK from outside the firmware is ignored and counted (R469, R532). -/
def Block.watchdogWrite (b : Block) (v : Word) : Block :=
  let b := b.store (rs 0x088) (clampFld v 31 16 10 10000)
  if bit v 0 then b.pageErr 0x78 1 17 else b

/-- RESET.WATCHDOG.KICK written by the running firmware, with the rest of its word, or by another writer over the register port, whose
KICK is ignored and counted (R469, R532). -/
def Block.watchdogKick (b : Block) (firmware : Bool) (v : Word) (wchk : Nat) : Block :=
  if firmware then
    if b.boot.restarting then b
    else
      let b := b.store (rs 0x088) (clampFld v 31 16 10 10000)
      if bit v 0 then { b with boot := { b.boot with kickAt := b.time.now } } else b
  else b.rpAccess (rs 0x088) v wchk fun b => (if bit v 0 then b.pageErr 0x78 1 17 else b, 0)

/-! ### Identity, variant, firmware and power (R427, R429, R446, R524, R525, R529, R530, R545) -/

/-- IDENT.FEATURES_AGREED written (R446, R447). -/
def Block.featuresWrite (b : Block) (v : Word) : Block :=
  let off := (b.peek wFeatOffered).toNat
  let on := (List.range 4).any fun k => b.peek (fo (0x048 + 8 * k)) != 0
  if subsetBits v.toNat off && bit v 0 && !on then (b.poke wFeatAgreed v).step10 else b.refuse wFeatAgreed

/-- VARIANT.FW_LOAD written (R427). -/
def Block.fwLoadWrite (b : Block) (v : Word) : Block :=
  if bit v 0 && b.boot.loading then b.fwLoad
  else
    let b := b.store (regAt 0x01 0x808) v
    if bit v 0 then b.fwLoad else b

/-- VARIANT.FW_ACTIVATE written (R427). -/
def Block.fwActivateWrite (b : Block) (v : Word) : Block :=
  let w := regAt 0x01 0x810
  if b.boot.staged.isNone || fld v 47 0 ≤ b.time.tick then b.refuse w else (b.store w v).setRf w 63 63 1

/-- VARIANT.FW_BCAST written (R429). -/
def Block.fwBcastWrite (b : Block) (v : Word) : Block :=
  if !(bit v 63) then b.store (regAt 0x01 0x820) v
  else if b.boot.staged.isNone || b.boot.bcast.isSome then b.bcastStart
  else (b.store (regAt 0x01 0x820) v).bcastStart

/-- VARIANT.CLOCK written (R508, R530). -/
def Block.clockWrite (b : Block) (v : Word) : Block :=
  let r := fld v 63 52
  if r % 100 != 0 || decide (r < 1200) then b.refuse wClock
  else
    let b := b.store wClock v
    if b.fusedMhz < r then b.setRf wClock 35 35 1 else b

/-- A port powered down, pilot lane included (R524). -/
def Block.powerDown (b : Block) (p : Nat) : Block :=
  let b := ((b.toDown p 8).setRf (regAt 0x01 0x850) (8 + p) (8 + p) 0).setLs p 56 56 0
  b.setLane p fun l => { l with powered := false, powering := false, wire := [], blocks := [], lossRunning := false }

/-- VARIANT.PORT_POWER written (R524, R525): refused whole where a port that it powers down may not be. -/
def Block.powerWrite (b : Block) (v : Word) : Block :=
  let w := regAt 0x01 0x850
  let old := b.peek w
  let off := (List.range 6).filter fun p => bit v p && !(bit old p)
  let on := (List.range 6).filter fun p => bit old p && !(bit v p)
  let may := fun (p : Nat) => ((b.port p).st == 0 || (b.port p).st == 3) && b.rf (ln p 0x098) 63 61 == 0
  if !(off.all may) then b.refuse w
  else
    let b := b.store w v
    let b := off.foldl Block.powerDown b
    let b := on.foldl (fun b p => b.setLane p fun l => { l with powering := true }) b
    b.republish

/-! ### Time, counters, trace and debug (R482, R481, R486, R491, R497, R498, R502) -/

/-- TIME.PERIOD written (R38, R482). -/
def Block.periodWrite (b : Block) (v : Word) : Block :=
  if !b.isMaster || !(periodOk (fld v 20 0)) then b.refuse wPeriod
  else { b with time := { b.time with periodDue := some (fld v 20 0) } }

/-- TIME.CTRL written (R481). -/
def Block.timeCtrl (b : Block) (v : Word) : Block := (b.store (regAt 3 0x060) v).masterCheck

/-- CTRS.CLEAR written (R486). -/
def Block.clearWrite (b : Block) (v : Word) : Block :=
  if fld v 3 0 == 0 then b
  else ({ b with obs := { b.obs with clearDue := b.obs.clearDue ||| fld v 3 0, clearTick := if b.obs.clearDue == 0 then b.time.tick else b.obs.clearTick } }).setRf (cn 0x040) 63 63 1

/-- DEBUG.SNAPSHOT written (R495, R497). -/
def Block.snapshotWrite (b : Block) (v : Word) : Block :=
  let w := db 0x048
  if !(bit v 0) then b.store w v
  else if b.rf w 63 63 == 0 || b.rst.down || b.rf (db 0x040) 63 63 == 0 then b.refuse w
  else { b.store w v with obs := { b.obs with snapDue := some 1, snapTick := b.time.tick } }

/-- DEBUG.CREASE written (R498). -/
def Block.creaseWrite (b : Block) (v : Word) : Block :=
  let w := db 0x050
  if fld v 47 0 == 0 && !b.creased then (b.store w v).setRf w 63 63 0
  else if b.creased || b.rf w 63 63 == 1 || fld v 47 0 < b.time.tick + 2 then b.refuse w
  else ((b.store w v).setRf w 63 63 1).setRf w 60 60 0

/-- DEBUG.CREASE_RESUME written (R502): refused where the index is less than two ticks ahead, or a resume is armed (R498; DESIGN CHOICE,
log entry 69). -/
def Block.resumeWrite (b : Block) (v : Word) : Block :=
  let w := db 0x058
  if b.rf w 63 63 == 1 || fld v 47 0 < b.time.tick + 2 then b.refuse w
  else (b.store w v).setRf w 63 63 1

/-- TRACE.MARK written (R491). -/
def Block.markWrite (b : Block) (v : Word) : Block := b.trace 0x0D 0 0 v.toNat 0

/-! ### A write taken up, by page and offset -/

def Block.applyPage01 (b : Block) (o w : Nat) (v : Word) : Block :=
  match o with
  | 0x080 => b.fuseWrite (fld v 3 0) 0x10
  | 0x808 => b.fwLoadWrite v
  | 0x810 => b.fwActivateWrite v
  | 0x820 => b.fwBcastWrite v
  | 0x840 => b.clockWrite v
  | 0x850 => b.powerWrite v
  | 0x858 => b.store w (clampFld v 47 40 60 105)
  | _ => b.store w v

def Block.applyLink (b : Block) (p o w : Nat) (v : Word) : Block :=
  match o with
  | 0x048 => b.linkControl p v
  | 0x058 => b.store w (clampFld (clampFld v 63 32 1000 10000000) 31 0 100 10000000)
  | 0x080 => b.creditWrite p v
  | 0x0E8 => b.shareWrite p v
  | _ => b.store w v

def Block.applyLane (b : Block) (p o w : Nat) (v : Word) : Block :=
  match o with
  | 0x068 => b.bitslipWrite p v
  | 0x098 => b.testWrite p v
  | _ => b.store w v

def Block.applyHc (b : Block) (n o w : Nat) (v : Word) (d : Darn) : Block :=
  match o with
  | 0x010 => b.chanControl n v
  | 0x0A0 => b.setRf w 31 0 0
  | 0x800 => b.mapWrite 0x800 v
  | 0x808 => b.mapWrite 0x808 v
  | 0x810 => b.mapWrite 0x810 v
  | 0x818 => b.mapWrite 0x818 v
  | 0x820 => b.mapWrite 0x820 v
  | 0x828 => b.mapWrite 0x828 v
  | 0x830 => b.store w (clampFld v 19 0 1 1000000)
  | 0x840 => b.kernelBoundary v d
  | _ => b.store w v

def Block.applyMangle (b : Block) (e o w : Nat) (v : Word) : Block :=
  if o == 0x010 then b.engineControl e v
  else if o == 0x078 then b.ucodeLoad e v
  else if 0x800 ≤ o && o ≤ 0x878 then b.profileWrite ((o - 0x800) / 8) v
  else if o == 0x908 then b.seedWrite v else b.store w v

def Block.applyFold (b : Block) (o w : Nat) (v : Word) : Block :=
  if 0x048 ≤ o && o ≤ 0x060 then b.streamEnable ((o - 0x048) / 8) v
  else if o == 0x068 then b.store w (clampFld v 15 0 1 64000)
  else if o == 0x070 then (b.storeIf (sizeOk v 7 15) w v).lossRecord
  else if o == 0x078 then (b.store w v).lossRecord
  else if o == 0x100 then b.pstoreLock v
  else if 0x800 ≤ o then b.doorbell ((o - 0x800) / 8) v
  else b.store w v

def Block.applyPstore (b : Block) (x o w : Nat) (v : Word) : Block :=
  match o with
  | 0x048 => b.poke w v
  | 0x050 => b.pstoreHigh x v
  | _ => b.store w v

def Block.applyRoute (b : Block) (o w : Nat) (v : Word) : Block :=
  match o with
  | 0x048 => b.switchTick v
  | 0x060 => b.routeWrite v
  | 0x070 => b.mcGroupWrite v
  | 0x078 => (b.store (rt 0x078) v).hamperCheck
  | 0x080 => b.hamperLimits v
  | 0x088 => b.flushWrite v
  | _ => b.store w v

def Block.applySegmap (b : Block) (o w : Nat) (v : Word) : Block :=
  match o with
  | 0x048 => b.segmapWrite v
  | 0x050 => b.segFenceWrite v
  | 0x078 => b.keyRootWrite v
  | _ => b.store w v

def Block.applyCtr (b : Block) (o w : Nat) (v : Word) (d : Darn) : Block :=
  match o with
  | 0x048 => b.ctrValueWrite v
  | 0x050 => b.ctrAddWrite v d
  | 0x068 => b.ctrGroupWrite v
  | 0x070 => b.ctrFenceWrite v
  | _ => b.store w v

def Block.applyCtxt (b : Block) (o w : Nat) (v : Word) : Block :=
  match o with
  | 0x048 => b.ctxWrite v
  | 0x050 => b.rinseWrite v
  | 0x058 => b.soloWrite v
  | _ => b.store w v

def Block.applyDebug (b : Block) (o w : Nat) (v : Word) : Block :=
  match o with
  | 0x048 => b.snapshotWrite v
  | 0x050 => b.creaseWrite v
  | 0x058 => b.resumeWrite v
  | 0x060 => b.storeIf (sizeOk v 7 15) w v
  | _ => b.store w v

/-- A write that the block takes up (R282): what its register's rule gives; `d` is what the check of a counter finds that the write
advances (R159). -/
def Block.regApply (b : Block) (w : Nat) (v : Word) (d : Darn) : Block :=
  let p := w / 512
  let o := w % 512 * 8
  match pageKind p with
  | none => b
  | some k =>
    match k with
    | 0x00 => if o == 0x058 then b.featuresWrite v else b.store w v
    | 0x01 => b.applyPage01 o w v
    | 0x02 => if o == 0x040 then b.sealWrite v else b.store w v
    | 0x03 => if o == 0x050 then b.periodWrite v else if o == 0x060 then b.timeCtrl v else b.store w v
    | 0x10 => b.applyLink (p - k) o w v
    | 0x18 => b.applyLane (p - k) o w v
    | 0x20 => b.applyHc (p - k) o w v d
    | 0x30 => b.applyMangle (p - k) o w v
    | 0x40 => b.applyFold o w v
    | 0x41 => b.applyPstore (p - k) o w v
    | 0x50 => b.applyRoute o w v
    | 0x58 => b.applySegmap o w v
    | 0x60 => b.applyCtr o w v d
    | 0x70 => b.applyCtxt o w v
    | 0x78 => if o == 0x040 then b.resetRequest v else if o == 0x050 then b.resetControl v else if o == 0x088 then b.watchdogWrite v
        else b.store w v
    | 0x7C => if o == 0x040 then b.clearWrite v else if o == 0x050 then b.storeIf (sizeOk v 4 12) w v else b.store w v
    | 0x7E => if o == 0x040 || o == 0x800 || o == 0x828 then b.storeIf (sizeOk v 7 15) w v
        else if o == 0x070 then b.markWrite v else b.store w v
    | 0x7F => b.applyDebug o w v
    | _ => b.store w v

/-- The registers that any writer may write (Table 15.1): doorbells, KB_MARK and TRACE.MARK. -/
def anyWriter (w : Nat) : Bool :=
  (decide (fo 0x800 ≤ w) && decide (w ≤ fo 0xFF8)) || w == hc 0 0x840 || w == tr 0x070

/-- A write of the window by someone with or without privilege (R532). -/
def Block.regWrite (b : Block) (priv : Bool) (w : Nat) (v : Word) (d : Darn) : Block := b.gate (anyWriter w) priv w fun b => b.regApply w v d

/-- Pages whose registers privileged register-port writes and Mildom writes alone change (R431, R476, R529). -/
def guarded (w : Nat) : Bool := [0x01, 0x70, 0x78].contains (w / 512)

/-- A privileged write by a class 0x2 packet or by JTAG (R532, DEDUCED, log entry 23). -/
def Block.remoteWrite (b : Block) (w : Nat) (v : Word) (d : Darn) : Block := b.regWrite (!(guarded w)) w v d

/-- A write by the register port (R281, R282, R284). -/
def Block.portWrite (b : Block) (priv : Bool) (w : Nat) (v : Word) (d : Darn) (wchk : Nat) : Block :=
  b.rpAccess w v wchk fun b => (b.regWrite priv w v d, 0)

/-- A write that any writer may make: its privilege does not count. -/
def anyRp (v : RpWord) : Rp := { priv := false, wchk := v.wchk }

/-- A register-port write of `v` to a register that has a command of its own, with what `go` does. -/
def Block.portGate (b : Block) (any : Bool) (rp : Rp) (w : Nat) (v : Word) (go : Block → Block) : Block :=
  b.rpAccess w v rp.wchk fun b => (b.gate any rp.priv w go, 0)

end Sys2Proof.Machine
end

