-- ==== Sys2Proof/Machine/Observe.lean ====
section
/-!
DEFINITION. The hang snapshot, the global stop, and packets for the management core and for the collector (§13.5, §13.6,
§8.9, R62, R100, R311, R337).
-/

namespace Sys2Proof.Machine

/-! ### Sections of a snapshot (Table 13.5) -/

/-- Ticks since a tick index. -/
def Block.ticksSince (b : Block) (t : Nat) : Nat := b.time.tick - t

/-- Ticks that a queued packet has waited. -/
def Block.waited (b : Block) (p : Packet) : Nat := b.ticksSince (((b.obs.arrived.find? fun x => x.1 == p).map (·.2)).getD b.time.tick)

/-- FLOW: the FLOW record, the issue tick of its oldest uncovered packet, and its FSYNC's position if broken. -/
def Block.snapFlow (b : Block) (f : Flow) : List Word :=
  let old := (b.req.posted.find? fun p => p.peer == f.peer && p.cls == f.cls).map (·.tick)
  let pos := (f.broken.bind fun x => x.fsyncs.getLast?).map (·.2.1)
  flowRec f ++ [word (put (old.getD 0) 48 0), word (put (pos.getD 0) 24 0)]

/-- GROUP_FLOW. -/
def snapGroup (g : GroupFlow) : List Word :=
  [word (put (rclassField g.cls) 2 62 + put (g.key / 4096) 1 61 + put g.key 12 49 + put g.gen 2 47), word (g.issued * g.members),
   word g.count]

/-- TAG. -/
def Block.snapTag (b : Block) (t : TagEnt) : List Word :=
  let ctx := ((b.cmd? t.cmd).map fun c => c.ctx).getD 0
  [word (put t.tag 16 48 + put t.opcode 6 42 + put t.peer 15 27 + put ctx 12 15), word (put t.tick 48 0)]

/-- What the head of a channel that has not been taken up waits on: a host channel, or its checks. -/
def Block.headWaits (b : Block) : Nat := if !b.hostUsable then 1 else 0

/-- What a taken-up packet waits on: pass staging, a range lock, an engine, or host memory. -/
def Block.takenWaits (b : Block) (d : DPkt) : Nat :=
  let unit := (b.mangle.queue.any fun u => u.kind = .reduce d.id)
    || b.mangle.engines.any fun g => (g.held.map fun h => decide (h.unit.kind = .reduce d.id)).getD false
  if d.window.isSome then 3
  else if b.dest.waiters.any fun w => w.2.2 = .pkt d.id || (d.landing && meets w.1 w.2.1 d.haddr d.span) then 2
  else if unit then 5 else 1

/-- A DEST_HEAD record from its parts. -/
def destHead (h : Slot) (on ticks : Nat) : List Word :=
  [word (put (rclassField (opClass (hOp h))) 2 62 + put (hSrc h) 15 47 + put on 4 43), word (put ticks 48 0),
   word h.toNat, word (h.toNat / 2 ^ 64)]

/-- DEST_HEAD: the oldest packet of each posted flow at the destination side. -/
def Block.snapHeads (b : Block) : List (List Word) :=
  let posted_ := fun (h : Slot) => decide (3 ≤ opClass (hOp h)) && decide (opClass (hOp h) ≤ 5)
  let taken := (b.dest.pkts.filter fun p => posted_ p.pkt.hdr).map fun p =>
    ((p.src, p.cls), destHead p.pkt.hdr (b.takenWaits p) (b.ticksSince p.tick))
  let boxed := (b.dest.inbox.filter fun p => posted_ p.hdr).map fun p =>
    ((hSrc p.hdr, opClass (hOp p.hdr)), destHead p.hdr b.headWaits (b.waited p))
  let all := taken ++ boxed
  ((all.map (·.1)).eraseDups).filterMap fun k => (all.find? fun x => x.1 == k).map (·.2)

/-- FWD_IN: the head of an input and lane (lane = 2·class + sub-channel), with the slots that wait behind it. -/
def Block.snapIn (b : Block) (input lane : Nat) : Option (List Word) :=
  let xs := b.fwd.pkts.filter fun p => p.input == input && 2 * opClass (hOp p.hdr) + p.sub == lane && decide (p.left < 1 + hSlots p.hdr)
  let ys := if input == 6 && lane % 2 == 0 then b.fwd.inject.filter fun p => opClass (hOp p.hdr) == lane / 2 else []
  let slots := (xs.map fun p => 1 + p.data.length - p.left).sum + (ys.map fun p => 1 + p.data.length).sum
  let rec_ := fun (h : Slot) (out ticks : Nat) =>
    [word (put input 3 61 + put lane 4 57 + put out 4 53 + put slots 21 32), word (put ticks 48 0), word h.toNat, word (h.toNat / 2 ^ 64)]
  match xs, ys with
  | p :: _, _ =>
    let out := match p.branches with
      | x :: _ => x.out
      | [] => if p.local_ then 6 else 0xF
    some (rec_ p.hdr out (b.ticksSince p.tick))
  | [], q :: _ => some (rec_ q.hdr 0xF (b.waited q))
  | [], [] => none

/-- FWD_OUT: the committed packet of a port and lane. -/
def Block.snapOut (b : Block) (port lane : Nat) : Option (List Word) :=
  (b.committed port lane).map fun (p, x) =>
    [word (put port 3 61 + put lane 4 57 + put p.input 3 54 + put (1 + hSlots p.hdr - x.sent) 21 32),
     word (put (Tbl.get 0 b.fwd.starved (16 * port + lane)) 48 0), word p.hdr.toNat, word (p.hdr.toNat / 2 ^ 64)]

/-- CREDIT of a port, side and counter. -/
def Block.snapCredit (b : Block) (p side i : Nat) : List Word :=
  let v := b.creditWord p side i
  [word (put p 3 61 + put side 1 60 + put i 5 55 + put (fld v 63 48) 16 32), word (put (fld v 47 0) 48 0)]

/-- HAMPER of a port and lane. -/
def Block.snapHamper (b : Block) (p lane : Nat) : Option (List Word) :=
  let xs := b.hampered.filter fun (q, x) => x.out == p && 2 * opClass (hOp q.hdr) + x.subch == lane
  match xs.mergeSort fun x y => decide (x.2.order ≤ y.2.order) with
  | [] => none
  | (q, _) :: _ =>
    let kib := ((xs.map fun x => x.1.bytes).sum + 1023) / 1024
    some [word (put p 3 61 + put lane 4 57 + put xs.length 32 0), word (put kib 32 0), word q.hdr.toNat, word (q.hdr.toNat / 2 ^ 64)]

/-- DISPATCH. -/
def Block.snapUnit (b : Block) (u : MUnit) : List Word :=
  [word (put u.path 8 56 + put (b.unitCtx u) 12 44), word (put (b.ticksSince u.tick) 48 0)]

/-- LOCK. -/
def Block.snapLock (b : Block) (l : Lock) : List Word :=
  [word (put l.chan 4 60 + put l.addr 52 0), word (put (b.ticksSince l.tick) 48 0)]

/-- PASS: an armed window. -/
def Block.snapPass (b : Block) (s : Nat) : Option (List Word) :=
  (b.prog s).win.map fun (lo, hi) =>
    let mine := b.fold.staged.filter fun x => x.stream == s
    let sum := fun (sp : Bool) => ((mine.filter fun x => x.spilled == sp).map fun x => x.data.length).sum
    [word (put s 8 56), word lo, word hi, word (put (sum false) 32 32 + put ((sum true + 1023) / 1024) 32 0)]

/-- Pairs of numbers below two bounds. -/
def pairs (m n : Nat) : List (Nat × Nat) := (List.range m).flatMap fun i => (List.range n).map fun j => (i, j)

/-- Every section of a snapshot, in the order of Table 13.5. -/
def Block.snapSections (b : Block) : List Section :=
  [{ type := 0x10, bytes := 64, recs := (List.range 256).map b.streamRec },
   { type := 0x11, bytes := 32, recs := b.waiting.map b.waitRec },
   { type := 0x12, bytes := 64, recs := (b.req.flows.take 8192).map b.snapFlow },
   { type := 0x13, bytes := 32, recs := ((b.req.groups.filter fun g => g.cmd.isSome).take 256).map snapGroup },
   { type := 0x14, bytes := 16, recs := b.req.tags.map b.snapTag },
   { type := 0x15, bytes := 32, recs := b.snapHeads.take 8192 },
   { type := 0x16, bytes := 32, recs := (pairs 7 16).filterMap fun x => b.snapIn x.1 x.2 },
   { type := 0x17, bytes := 32, recs := (pairs 6 16).filterMap fun x => b.snapOut x.1 x.2 },
   { type := 0x18, bytes := 16, recs := (pairs 6 64).map fun x => b.snapCredit x.1 (x.2 / 32) (x.2 % 32) },
   { type := 0x19, bytes := 32, recs := (pairs 6 16).filterMap fun x => b.snapHamper x.1 x.2 },
   { type := 0x1A, bytes := 32, recs := (List.range 13).map b.engineRec },
   { type := 0x1B, bytes := 32, recs := (b.mangle.queue.take 64).map b.snapUnit },
   { type := 0x1C, bytes := 64, recs := (List.range 6).map fun p => [b.linkState p, b.linkSeq p, b.replayStatus p] },
   { type := 0x1D, bytes := 64, recs := (List.range 12).map fun n => [b.chanStatus n, b.chanLatency n] },
   { type := 0x1E, bytes := 16, recs := (b.host.locks.take 384).map b.snapLock },
   { type := 0x1F, bytes := 32, recs := (List.range 256).filterMap b.snapPass }]

/-- A snapshot taken (R495, R497): every record is read in this one step, and this tick's part of it is written (R496). Nothing while one runs, while its area is off or
while the compute domain is down. -/
def Block.takeSnapshot (b : Block) (cause : Nat) : Block :=
  let w := db 0x048
  let area := b.peek (db 0x040)
  if b.rf w 63 63 == 0 || !(bit area 63) || b.rst.down then b
  else
    let gen := (b.rf w 47 32 + 1) % 2 ^ 16
    let h : DumpHead := { kind := 5, cause, gen, from_ := b.time.now, to_ := b.time.now }
    let base := fld area 51 12 * 4096
    let a := b.layArea (fld area 4 0) h b.snapSections
    let b := { b with obs := { b.obs with snap := some { base, hdr := a.hdr, next := base + 64, rest := a.body } } }
    ((b.snapPiece.setRf w 47 32 gen).setRf w 63 63 0).setRf w 61 61 (b2n a.cut)

/-- The snapshot that a request or a stall flag asked for, at the first edge after (R495). -/
def Block.snapshot (b : Block) : Block :=
  match b.obs.snapDue with
  | none => b
  | some cause =>
    if b.time.tick == b.obs.snapTick || !b.onEdge then b
    else ({ b with obs := { b.obs with snapDue := none } }).takeSnapshot cause

/-! ### The crease (R479, R499 to R502) -/

/-- The cut at its edge, before any time passes (R37). -/
def Block.creaseCut (b : Block) : Block :=
  let w := db 0x050
  let t := b.rf w 47 0
  if b.rf w 63 63 == 0 || b.time.tick < t || !b.onEdge then b
  else
    let b := (((b.setRf w 63 63 0).setRf w 62 62 1).setRf w 61 61 0).setRf w 60 60 (b2n (decide (t < b.time.tick)))
    let b := { b.poke (db 0x070) (word b.time.edge) with obs := { b.obs with cutTick := b.time.tick } }.trace 0x0A 0 0 1 b.time.tick
    (if b.rf w 59 59 == 1 then b.takeSnapshot 3 else b).covers

/-- A timer that stood still from the cut until the edge of the resume (R499, R502). -/
def shiftTimer (cut edge t : Nat) : Nat := if t ≤ cut then t + (edge - cut) else max t edge

/-- The resume at its edge. -/
def Block.creaseResume (b : Block) : Block :=
  let r := b.rf (db 0x058) 47 0
  if b.rf (db 0x058) 63 63 == 0 || b.time.tick < r || !b.onEdge then b
  else
    let b := b.setRf (db 0x058) 63 63 0
    if !b.creased then b
    else
      let cut := (b.peek (db 0x070)).toNat
      let b := (b.setRf (db 0x050) 62 62 0).setRf (db 0x050) 60 60 (if r < b.time.tick then 1 else b.rf (db 0x050) 60 60)
      let edge := b.time.edge
      let cmds := b.req.cmds.map fun c => { c with timer := c.timer.map (shiftTimer cut edge) }
      let progs := b.fold.progs.map fun p => { p with since := shiftTimer cut edge p.since }
      let b : Block := { b with req := { b.req with cmds }, fold := { b.fold with progs } }
      let late := (List.range 256).filter fun s => b.creaseTick s && decide ((b.prog s).tickTgt < b.time.tick)
      let b := late.foldl (fun b s => b.foldOverrun s (b.time.tick - (b.prog s).tickTgt)) b
      ((b.trace 0x0A 0 0 3 b.time.tick).releaseHeld).reqPump.covers

/-! ### Packets handed to the management core (R62, R100, R311, R326, R337) -/

/-- The check of R311 on a packet of any class; a packet that passes it leaves the inbox and `go` takes it up. -/
def Block.deliver (b : Block) (p : Packet) (go : Block → Block) : Block :=
  let old := bit p.hdr 120 != (b.fwd.current == 1)
  let pair := (hSrc p.hdr, opClass (hOp p.hdr))
  let b := b.unbox p
  if old && b.fwd.newSeen.contains pair then b.bump (rt 0x0E0)
  else
    let b := if old || b.fwd.newSeen.contains pair then b else { b with fwd := { b.fwd with newSeen := pair :: b.fwd.newSeen } }
    go b

/-- A TC2 packet: discarded and counted while the compute domain is down (R465). -/
def Block.deliverTc2 (b : Block) (p : Packet) (go : Block → Block) : Block :=
  if b.up then b.deliver p go else (b.unbox p).bump (rs 0x070)

/-- A collector record's words (Table 8.12): KIND 1 capture, 2 trace. -/
def collectWords (p : Packet) (kind phase now : Nat) : List Word :=
  let w := (p.data ++ [0, 0]).take 2
  (w.flatMap fun s => [word s.toNat, word (s.toNat / 2 ^ 64)])
  ++ [word (put phase 1 63 + put kind 2 61 + put (hSrc p.hdr) 15 46), word now, 0, 0]

/-- CAPTURE_FWD or TRACE_FWD at the collector (R326); one whose data carries an uncorrectable error is discarded too. -/
def Block.collect (b : Block) (p : Packet) (kind : Nat) : Block :=
  b.deliver p fun b =>
    if bit (b.peek (tr 0x830)) 63 && !p.bad && b.ringFree (tr 0x828) (tr 0x830) then
      b.ringPutLast (tr 0x828) (tr 0x830) 64 4 false fun ph => collectWords p kind ph b.time.now
    else b.bump (tr 0x838)

/-- Steps 1 and 2 of Table 2.7, then the check of R62, for a class 0x2 request: MGMT is bit 45 (Table 3.7). -/
def Block.mgmtCheck (b : Block) (h : Slot) : Check :=
  if !(b.isTarget h) then { status := stABSENT, reason := 2 }
  else if !(bit h 45) then { status := stDENIED, reason := 0xC }
  else { status := 0, reason := 0 }

/-- REG_READ (R62): the word in bytes 0 to 7 of its answer. -/
def Block.regReadPacket (b : Block) (p : Packet) (d : Darn) : Block :=
  let c := b.mgmtCheck p.hdr
  if c.status != 0 then b.failNonPosted p c
  else
    let (b, v) := b.readReg (fld p.hdr 61 46) d
    b.respond (hSrc p.hdr) (hCtx p.hdr) (hTag p.hdr) 0 0 (toBytes 16 v.toNat)

/-- REG_WRITE (R62, R532): a privileged write where packets may write, then its answer. -/
def Block.regWritePacket (b : Block) (p : Packet) (d : Darn) : Block :=
  let c := b.mgmtCheck p.hdr
  if c.status != 0 then b.failNonPosted p c
  else if p.bad then b.respond (hSrc p.hdr) (hCtx p.hdr) (hTag p.hdr) stPOISON 0 []
  else
    let b := b.remoteWrite (fld p.hdr 61 46) (word (ofBytes (slice (slotsBytes p.data) 0 8))) d
    b.respond (hSrc p.hdr) (hCtx p.hdr) (hTag p.hdr) 0 0 []

/-- A packet whose opcode is reserved (R100, R337). -/
def Block.reservedPacket (b : Block) (p : Packet) : Block :=
  let op := hOp p.hdr
  if reservedReq op && op != 0 then
    b.arrive p true fun b => b.failNonPosted p { status := stABSENT, reason := 1 }
  else if reservedResp op then b.deliverTc2 p fun b => b.bump (fo 0x090)
  else if (decide (0x30 ≤ op) && decide (op ≤ 0x3E)) && !([0x31, 0x32, 0x38, 0x39]).contains op then
    b.deliver p fun b => b.pageErr 0x7E 5 0
  else b

end Sys2Proof.Machine
end

