-- ==== Sys2Proof/Machine/CmdBoard.lean ====
section
/-!
DEFINITION. Meanings: firmware, seal, features, power, clock, time registers, counters, trace, debug (chapters 11, 13, 14).
-/

namespace Sys2Proof.Machine

/-- FW_LOAD_REQUEST (R427). REQUEST is 1. -/
def execFwLoadRequest (rp : Rp) (v : Word) (s : State) : Host.Outcome State Fault Refusal :=
  s.run fun b => b.portGate false rp (regAt 0x01 0x808) (setBit v 0 true) fun b => b.fwLoadWrite (setBit v 0 true)

/-- FW_LOAD_DONE (R427). Whether digest and signature verify. -/
def execFwLoadDone (digest sig : Bool) (s : State) : Host.Outcome State Fault Refusal :=
  s.run fun b => b.fwLoadDone digest sig

/-- FW_ACTIVATE_WRITE (R427). -/
def execFwActivateWrite (rp : Rp) (v : Word) (s : State) : Host.Outcome State Fault Refusal :=
  s.run fun b => b.portGate false rp (regAt 0x01 0x810) v fun b => b.fwActivateWrite v

/-- FW_ACTIVATION (R428). The outcome of a broadcast assembly's check. -/
def execFwActivation (digest sig : Bool) (s : State) : Host.Outcome State Fault Refusal :=
  s.run fun b => b.fwActivation digest sig

/-- FW_BCAST_START (R429). START is 1. -/
def execFwBcastStart (rp : Rp) (v : Word) (s : State) : Host.Outcome State Fault Refusal :=
  s.run fun b => b.portGate false rp (regAt 0x01 0x820) (setBit v 63 true) fun b => b.fwBcastWrite (setBit v 63 true)

/-- FW_CHUNK_SEND (R429). -/
def execFwChunkSend (s : State) : Host.Outcome State Fault Refusal :=
  s.run fun b => b.bcastNext

/-- TOPO_SEAL_WRITE (R434). -/
def execTopoSealWrite (rp : Rp) (v : Word) (s : State) : Host.Outcome State Fault Refusal :=
  s.run fun b => b.portGate false rp wSeal v fun b => b.sealWrite v

/-- FEATURES_AGREED_WRITE (R446). -/
def execFeaturesAgreedWrite (rp : Rp) (v : Word) (s : State) : Host.Outcome State Fault Refusal :=
  s.run fun b => b.portGate false rp wFeatAgreed v fun b => b.featuresWrite v

/-- VARIANT_FUSED_WRITE (R545). -/
def execVariantFusedWrite (rp : Rp) (v : Word) (s : State) : Host.Outcome State Fault Refusal :=
  s.run fun b => b.portGate false rp wCode v fun b => b.fuseWrite (fld v 3 0) 0x10

/-- PORT_POWER_OFF (R524). -/
def execPortPowerOff (rp : Rp) (v : Word) (s : State) : Host.Outcome State Fault Refusal :=
  s.run fun b => b.portGate false rp (regAt 0x01 0x850) v fun b => b.powerWrite v

/-- PORT_POWER_ON (R525). -/
def execPortPowerOn (rp : Rp) (v : Word) (s : State) : Host.Outcome State Fault Refusal :=
  s.run fun b => b.portGate false rp (regAt 0x01 0x850) v fun b => b.powerWrite v

/-- CLOCK_REQUEST_WRITE (R530). -/
def execClockRequestWrite (rp : Rp) (v : Word) (s : State) : Host.Outcome State Fault Refusal :=
  s.run fun b => b.portGate false rp wClock v fun b => b.clockWrite v

/-- TIME_PERIOD_WRITE (R482). -/
def execTimePeriodWrite (rp : Rp) (v : Word) (s : State) : Host.Outcome State Fault Refusal :=
  s.run fun b => b.portGate false rp wPeriod v fun b => b.periodWrite v

/-- BECOME_MASTER_WRITE (R481). -/
def execBecomeMasterWrite (rp : Rp) (v : Word) (s : State) : Host.Outcome State Fault Refusal :=
  s.run fun b => b.portGate false rp (regAt 0x03 0x060) v fun b => b.timeCtrl v

/-- CTRS_CLEAR_WRITE (R486). -/
def execCtrsClearWrite (rp : Rp) (v : Word) (s : State) : Host.Outcome State Fault Refusal :=
  s.run fun b => b.portGate false rp (cn 0x040) v fun b => b.clearWrite v

/-- COUNTER_CLEAR (R486). -/
def execCounterClear (s : State) : Host.Outcome State Fault Refusal :=
  s.run fun b => b.counterClear

/-- TRACE_MARK (R491). -/
def execTraceMark (v : RpWord) (s : State) : Host.Outcome State Fault Refusal :=
  s.run fun b => b.portGate true (anyRp v) (tr 0x070) v.v fun b => b.markWrite v.v

/-- SNAPSHOT_REQUEST (R497). REQUEST is 1. -/
def execSnapshotRequest (rp : Rp) (v : Word) (s : State) : Host.Outcome State Fault Refusal :=
  s.run fun b => b.portGate false rp (db 0x048) (setBit v 0 true) fun b => b.snapshotWrite (setBit v 0 true)

/-- SNAPSHOT (R495). -/
def execSnapshot (s : State) : Host.Outcome State Fault Refusal :=
  s.run fun b => b.snapshot

/-- CREASE_TICK_WRITE (R498). -/
def execCreaseTickWrite (rp : Rp) (v : Word) (s : State) : Host.Outcome State Fault Refusal :=
  s.run fun b => b.portGate false rp (db 0x050) v fun b => b.creaseWrite v

/-- CREASE_CUT (R499). -/
def execCreaseCut (s : State) : Host.Outcome State Fault Refusal :=
  s.run fun b => b.creaseCut

/-- CREASE_RESUME_WRITE (R502). -/
def execCreaseResumeWrite (rp : Rp) (v : Word) (s : State) : Host.Outcome State Fault Refusal :=
  s.run fun b => b.portGate false rp (db 0x058) v fun b => b.resumeWrite v

/-- CREASE_RESUME (R502). -/
def execCreaseResume (s : State) : Host.Outcome State Fault Refusal :=
  s.run fun b => b.creaseResume

end Sys2Proof.Machine
end

