-- ==== Sys2Proof/Machine/CmdDest.lean ====
section
/-!
DEFINITION. Meanings: packets that arrive for this chip (chapters 2 to 4, 8, 11).
-/

namespace Sys2Proof.Machine

/-- A TC2 packet of one opcode taken up, and what is covered then. -/
def Block.tc2 (b : Block) (p : Packet) (op : Nat) (go : Block → Block) : Block :=
  if hOp p.hdr == op then (b.deliverTc2 p go).covers else b

/-- A TC0 packet of one opcode taken up by the management core. -/
def Block.mgmtPkt (b : Block) (p : Packet) (op : Nat) (go : Block → Block) : Block :=
  if hOp p.hdr == op then b.deliver p go else b

/-- Class that RCLASS names, and COUNT (Table 3.8). -/
def hRclass (h : Slot) : Nat := 3 + fld h 89 88
def hCount (h : Slot) : Nat := fld h 87 64

/-- RESP_DATA or RESP_STATUS (R114, R128, Table 3.8). -/
def Block.respPacket (b : Block) (p : Packet) : Block :=
  match b.req.tags.find? fun e => e.tag == hTag p.hdr with
  | none => b.late (hOp p.hdr) (hSrc p.hdr) 0 (hCtx p.hdr) (hTag p.hdr)
  | some e => b.response e (fld p.hdr 69 66) (fld p.hdr 65 62) (hSrc p.hdr) (slotsBytes p.data) p.bad

/-- RECEIPT_MC (R113, Table 3.8). -/
def Block.receiptMcPacket (b : Block) (p : Packet) : Block :=
  let h := p.hdr
  b.receiptMC (fld h 52 41 + 4096 * fld h 55 55) (hRclass h) (fld h 54 53) (hCount h) (fld h 63 60) (fld h 59 56) (hSrc h)

/-- TORN_NOTE (R123, R124, Table 3.8). -/
def Block.tornPacket (b : Block) (p : Packet) : Block :=
  let h := p.hdr
  b.tornNote (bit h 77) (fld h 76 71) (fld h 70 56) (fld h 89 78) (fld h 55 40) (hTag h) (hSrc h)

/-- LOAD (R108). -/
def execLoad (p : Packet) (f : Finds) (s : State) : Host.Outcome State Fault Refusal :=
  s.carry fun b => b.arrive p (hOp p.hdr == 0x01) fun b => b.arriveLoad p f

/-- STORE (R103). -/
def execStore (p : Packet) (f : Finds) (s : State) : Host.Outcome State Fault Refusal :=
  s.carry fun b => b.arrive p (hOp p.hdr == 0x02) fun b => b.arriveStore p f

/-- STORE_PART (R103). -/
def execStorePart (p : Packet) (f : Finds) (s : State) : Host.Outcome State Fault Refusal :=
  s.carry fun b => b.arrive p (hOp p.hdr == 0x03) fun b => b.arriveStore p f

/-- REDUCE (R28). -/
def execReduce (p : Packet) (f : Finds) (s : State) : Host.Outcome State Fault Refusal :=
  s.carry fun b => b.arrive p (hOp p.hdr == 0x04) fun b => (b.arriveReduce p f).dispatchAll

/-- SIGNAL (R103). -/
def execSignal (p : Packet) (f : Finds) (s : State) : Host.Outcome State Fault Refusal :=
  s.carry fun b => b.arrive p (hOp p.hdr == 0x05) fun b => b.arriveSignal p f

/-- CTR_READ (R103). -/
def execCtrRead (p : Packet) (f : Finds) (s : State) : Host.Outcome State Fault Refusal :=
  s.carry fun b => b.arrive p (hOp p.hdr == 0x06) fun b => b.arriveCtrRead p f

/-- FSYNC (R110). -/
def execFsync (p : Packet) (s : State) : Host.Outcome State Fault Refusal :=
  s.carry fun b => b.arrive p (decide (7 ≤ hOp p.hdr) && decide (hOp p.hdr ≤ 9)) fun b => b.arriveFsync p

/-- STORE_MC (R81). -/
def execStoreMc (p : Packet) (f : Finds) (s : State) : Host.Outcome State Fault Refusal :=
  s.carry fun b => b.arrive p (hOp p.hdr == 0x0A) fun b => b.arriveStore p f

/-- STORE_PART_MC (R81). -/
def execStorePartMc (p : Packet) (f : Finds) (s : State) : Host.Outcome State Fault Refusal :=
  s.carry fun b => b.arrive p (hOp p.hdr == 0x0B) fun b => b.arriveStore p f

/-- REDUCE_MC (R81). -/
def execReduceMc (p : Packet) (f : Finds) (s : State) : Host.Outcome State Fault Refusal :=
  s.carry fun b => b.arrive p (hOp p.hdr == 0x0C) fun b => (b.arriveReduce p f).dispatchAll

/-- REG_READ_PACKET (R62). -/
def execRegReadPacket (p : Checked Packet) (s : State) : Host.Outcome State Fault Refusal :=
  s.carry fun b => b.arrive p.what (hOp p.what.hdr == 0x0D) fun b => b.regReadPacket p.what p.d

/-- REG_WRITE_PACKET (R62). -/
def execRegWritePacket (p : Checked Packet) (s : State) : Host.Outcome State Fault Refusal :=
  s.carry fun b => b.arrive p.what (hOp p.what.hdr == 0x0E) fun b => b.regWritePacket p.what p.d

/-- FADD (R105). -/
def execFAdd (p : Packet) (f : Finds) (s : State) : Host.Outcome State Fault Refusal :=
  s.carry fun b => b.arrive p (hOp p.hdr == 0x10) fun b => b.arriveAtomic p f

/-- SWAP (R105). -/
def execSwap (p : Packet) (f : Finds) (s : State) : Host.Outcome State Fault Refusal :=
  s.carry fun b => b.arrive p (hOp p.hdr == 0x11) fun b => b.arriveAtomic p f

/-- CAS8 (R105). -/
def execCas8 (p : Packet) (f : Finds) (s : State) : Host.Outcome State Fault Refusal :=
  s.carry fun b => b.arrive p (hOp p.hdr == 0x12) fun b => b.arriveAtomic p f

/-- FAND (R105). -/
def execFAnd (p : Packet) (f : Finds) (s : State) : Host.Outcome State Fault Refusal :=
  s.carry fun b => b.arrive p (hOp p.hdr == 0x13) fun b => b.arriveAtomic p f

/-- FOR (R105). -/
def execFOr (p : Packet) (f : Finds) (s : State) : Host.Outcome State Fault Refusal :=
  s.carry fun b => b.arrive p (hOp p.hdr == 0x14) fun b => b.arriveAtomic p f

/-- FXOR (R105). -/
def execFXor (p : Packet) (f : Finds) (s : State) : Host.Outcome State Fault Refusal :=
  s.carry fun b => b.arrive p (hOp p.hdr == 0x15) fun b => b.arriveAtomic p f

/-- FMAX_S (R105). -/
def execFMaxS (p : Packet) (f : Finds) (s : State) : Host.Outcome State Fault Refusal :=
  s.carry fun b => b.arrive p (hOp p.hdr == 0x16) fun b => b.arriveAtomic p f

/-- FMIN_S (R105). -/
def execFMinS (p : Packet) (f : Finds) (s : State) : Host.Outcome State Fault Refusal :=
  s.carry fun b => b.arrive p (hOp p.hdr == 0x17) fun b => b.arriveAtomic p f

/-- FMAX_U (R105). -/
def execFMaxU (p : Packet) (f : Finds) (s : State) : Host.Outcome State Fault Refusal :=
  s.carry fun b => b.arrive p (hOp p.hdr == 0x18) fun b => b.arriveAtomic p f

/-- FMIN_U (R105). -/
def execFMinU (p : Packet) (f : Finds) (s : State) : Host.Outcome State Fault Refusal :=
  s.carry fun b => b.arrive p (hOp p.hdr == 0x19) fun b => b.arriveAtomic p f

/-- CAS16 (R140). -/
def execCas16 (p : Packet) (f : Finds) (s : State) : Host.Outcome State Fault Refusal :=
  s.carry fun b => b.arrive p (hOp p.hdr == 0x1A) fun b => b.arriveAtomic p f

/-- RESP_DATA (R114). -/
def execRespData (p : Packet) (s : State) : Host.Outcome State Fault Refusal :=
  s.carry fun b => b.tc2 p 0x20 fun b => b.respPacket p

/-- RESP_STATUS (R114). -/
def execRespStatus (p : Packet) (s : State) : Host.Outcome State Fault Refusal :=
  s.carry fun b => b.tc2 p 0x21 fun b => b.respPacket p

/-- RECEIPT (R112). -/
def execReceipt (p : Packet) (s : State) : Host.Outcome State Fault Refusal :=
  s.carry fun b => b.tc2 p 0x22 fun b => b.receipt (hSrc p.hdr) (hRclass p.hdr) (hCount p.hdr) (fld p.hdr 63 60) (fld p.hdr 59 56)

/-- RECEIPT_MC (R113). -/
def execReceiptMc (p : Packet) (s : State) : Host.Outcome State Fault Refusal :=
  s.carry fun b => b.tc2 p 0x23 fun b => b.receiptMcPacket p

/-- SYNC_ACK (R123). -/
def execSyncAck (p : Packet) (s : State) : Host.Outcome State Fault Refusal :=
  s.carry fun b => b.tc2 p 0x24 fun b => b.syncAck (hSrc p.hdr) (hRclass p.hdr) (hCount p.hdr) (hTag p.hdr)

/-- TORN_NOTE (R123). -/
def execTornNote (p : Packet) (s : State) : Host.Outcome State Fault Refusal :=
  s.carry fun b => b.tc2 p 0x25 fun b => b.tornPacket p

/-- FW_CHUNK (R430). -/
def execFwChunk (p : Packet) (s : State) : Host.Outcome State Fault Refusal :=
  s.carry fun b => b.mgmtPkt p 0x31 fun b => b.fwChunk p

/-- FW_ACTIVATE (R430). -/
def execFwActivate (p : Packet) (s : State) : Host.Outcome State Fault Refusal :=
  s.carry fun b => b.mgmtPkt p 0x32 fun b => b.fwActivatePkt p

/-- CAPTURE_FWD (R326). -/
def execCaptureFwd (p : Packet) (s : State) : Host.Outcome State Fault Refusal :=
  s.carry fun b => if hOp p.hdr == 0x38 then b.collect p 1 else b

/-- TRACE_FWD (R326). -/
def execTraceFwd (p : Packet) (s : State) : Host.Outcome State Fault Refusal :=
  s.carry fun b => if hOp p.hdr == 0x39 then b.collect p 2 else b

/-- RESERVED_OPCODE_PACKET (R100). -/
def execReservedOpcodePacket (p : Packet) (s : State) : Host.Outcome State Fault Refusal :=
  s.carry fun b => b.reservedPacket p

end Sys2Proof.Machine
end

