-- ==== Sys2Proof/Machine/CmdFold.lean ====
section
/-!
DEFINITION. Meanings: the Fold sequencer (chapter 6).
-/

namespace Sys2Proof.Machine

/-- FOLD_START (R215). The stream. -/
def execFoldStart (st : Nat) (s : State) : Host.Outcome State Fault Refusal :=
  s.carry fun b => b.foldStart st

/-- FOLD_PUT (R238). The stream, and what the check of the fetched instruction finds. -/
def execFoldPut (st : Nat) (d : Darn) (s : State) : Host.Outcome State Fault Refusal :=
  s.carry fun b => (b.foldFetch st 0x1 d fun b i => b.foldPut st i).covers

/-- FOLD_GET (R238). The stream, and what the check of the fetched instruction finds. -/
def execFoldGet (st : Nat) (d : Darn) (s : State) : Host.Outcome State Fault Refusal :=
  s.carry fun b => (b.foldFetch st 0x2 d fun b i => b.foldGet st i).covers

/-- PUTR (R238). The stream, and what the check of the fetched instruction finds. -/
def execPutr (st : Nat) (d : Darn) (s : State) : Host.Outcome State Fault Refusal :=
  s.carry fun b => (b.foldFetch st 0x3 d fun b i => b.foldPutr st i).covers

/-- PASS (R234). The stream, and what the check of the fetched instruction finds. -/
def execPass (st : Nat) (d : Darn) (s : State) : Host.Outcome State Fault Refusal :=
  s.carry fun b => (b.foldFetch st 0x4 d fun b i => b.foldPass st i).covers

/-- PASS_CONSUME (R234). The stream, and the times from which its packet, its local data and its way out were there (R250). -/
def execPassConsume (st inp loc out : Nat) (s : State) : Host.Outcome State Fault Refusal :=
  s.carry fun b => ((b.clock (max inp (max loc out))).passConsume st).covers

/-- GATHER_IDX (R239). The stream, and what the check of the fetched instruction finds. -/
def execGatherIdx (st : Nat) (d : Darn) (s : State) : Host.Outcome State Fault Refusal :=
  s.carry fun b => (b.foldFetch st 0x5 d fun b i => b.foldGather st i).covers

/-- FOLD_SIGNAL (R240). The stream, and what the check of the fetched instruction finds. -/
def execFoldSignal (st : Nat) (d : Darn) (s : State) : Host.Outcome State Fault Refusal :=
  s.carry fun b => (b.foldFetch st 0x6 d fun b i => b.foldSignal st i).covers

/-- WAIT (R241). The stream, and what the checks of the fetched instruction and of the counter find. -/
def execWait (st : Nat) (d : Checked Darn) (s : State) : Host.Outcome State Fault Refusal :=
  s.carry fun b => (b.foldFetch st 0x7 d.what fun b i => b.foldWait st i d.d).covers

/-- WAIT_SATISFIED (R241). The stream, what the check of the counter finds, with fabric time (R250). -/
def execWaitSatisfied (st : Nat) (d : Timed Darn) (s : State) : Host.Outcome State Fault Refusal :=
  s.carry fun b => ((b.clock d.now).foldWaited st d.what).covers

/-- FOLD_TICK (R242). The stream, and what the check of the fetched instruction finds. -/
def execFoldTick (st : Nat) (d : Darn) (s : State) : Host.Outcome State Fault Refusal :=
  s.carry fun b => (b.foldFetch st 0x8 d fun b i => b.foldTick st i).covers

/-- FOLD_TICK_RELEASE (R242). -/
def execFoldTickRelease (st : Nat) (s : State) : Host.Outcome State Fault Refusal :=
  s.carry fun b => (b.foldTicked st).covers

/-- FOLD_FENCE (R243). The stream, and what the check of the fetched instruction finds. -/
def execFoldFence (st : Nat) (d : Darn) (s : State) : Host.Outcome State Fault Refusal :=
  s.carry fun b => (b.foldFetch st 0x9 d fun b i => b.foldFence st i .fence).covers

/-- LOOP (R244). The stream, and what the check of the fetched instruction finds. -/
def execLoop (st : Nat) (d : Darn) (s : State) : Host.Outcome State Fault Refusal :=
  s.carry fun b => (b.foldFetch st 0xA d fun b i => b.foldLoop st i).covers

/-- DONE (R245). The stream, and what the check of the fetched instruction finds. -/
def execFoldDone (st : Nat) (d : Darn) (s : State) : Host.Outcome State Fault Refusal :=
  s.carry fun b => (b.foldFetch st 0xB d fun b i => b.foldFence st i .done).covers

/-- INSTRUCTION_COMPLETION (R230). The data instruction, and fabric time (R250). -/
def execInstructionCompletion (id now : Nat) (s : State) : Host.Outcome State Fault Refusal :=
  s.carry fun b => ((b.clock now).foldCompleted id).reqPump.covers

/-- FOLD_TIMEOUT (R241). -/
def execFoldTimeout (st : Nat) (s : State) : Host.Outcome State Fault Refusal :=
  s.carry fun b => (b.foldTimeout st).reqPump.covers

end Sys2Proof.Machine
end

