-- ==== Sys2Proof/Machine/CmdForward.lean ====
section
/-!
DEFINITION. Meanings: the forwarding core, tick edges and route epochs (chapters 1 and 8).
-/

namespace Sys2Proof.Machine

/-- FORWARD_PACKET (R292). Input 0 to 5, or 6 for local injection; lane 2·class + sub-channel; fabric time. -/
def execForwardPacket (input lane now : Nat) (s : State) : Host.Outcome State Fault Refusal :=
  s.carry fun b => (b.clock now).forward input lane

/-- PACKET_COMMIT (R294). -/
def execPacketCommit (port lane : Nat) (s : State) : Host.Outcome State Fault Refusal :=
  s.carry fun b => (b.commit port lane).egressPump

/-- TICK_EDGE (R37). Fabric time, hottest sensor in 1/8 °C, power estimate in 0.1 W, OFFSET of each port's TICK message. -/
def execTickEdge (now temp power : Nat) (offsets : List Nat) (s : State) : Host.Outcome State Fault Refusal :=
  s.carry fun b => b.tickEdge now temp power offsets

/-- EPOCH_SWITCH (R308). -/
def execEpochSwitch (s : State) : Host.Outcome State Fault Refusal :=
  s.carry fun b => b.epochSwitch

/-- EPOCH_RETIRE (R306). -/
def execEpochRetire (s : State) : Host.Outcome State Fault Refusal :=
  s.carry fun b => b.epochRetire

/-- ROUTE_STALL_FLAG (R301). -/
def execRouteStallFlag (port lane : Nat) (s : State) : Host.Outcome State Fault Refusal :=
  s.carry fun b => b.stallFlag port lane

end Sys2Proof.Machine
end

