-- ==== Sys2Proof/Machine/CmdHost.lean ====
section
/-!
DEFINITION. Meanings: host responses and Mangle units (chapters 5 and 7).
-/

namespace Sys2Proof.Machine

/-- RDATA (R260). TAG with BEAT, the header's check, the beat's words, cycles since the transfer. -/
def execRdata (ch status : Nat) (tag : RsTag) (hdr : Darn) (words : List HostWord) (cycles : Nat) (s : State) : Host.Outcome State Fault Refusal :=
  s.carry fun b => (b.hostReady ch tag.rq).rdata ch status tag.tag tag.beat hdr words cycles

/-- WACK (R260). The header's check, and that of the counter that the write advances. -/
def execWack (ch status : Nat) (tag : HostTag) (hdr : AckFinds) (s : State) : Host.Outcome State Fault Refusal :=
  s.carry fun b => (b.hostReady ch tag.rq).wack ch status tag.tag hdr.hdr hdr.ctr

/-- ADATA (R260). -/
def execAdata (ch status : Nat) (tag : HostTag) (hdr : Darn) (words : List HostWord) (s : State) : Host.Outcome State Fault Refusal :=
  s.carry fun b => (b.hostReady ch tag.rq).adata ch status tag.tag hdr words

/-- HOST_TRANSACTION_TIMEOUT (R267). The tag, with fabric time. -/
def execHostTransactionTimeout (ch : Nat) (tag : Timed HostTag) (s : State) : Host.Outcome State Fault Refusal :=
  s.carry fun b => ((b.clock tag.now).hostReady ch tag.what.rq).hostTimeout ch tag.what.tag

/-- MANGLE_UNIT_DONE (R179). Whether control state of the unit was lost. -/
def execMangleUnitDone (e : Nat) (bad : Bool) (s : State) : Host.Outcome State Fault Refusal :=
  s.carry fun b => b.unitDone e bad

end Sys2Proof.Machine
end

