-- ==== Sys2Proof/Machine/CmdLink.lean ====
section
/-!
DEFINITION. Meanings: the link layer (chapter 9).
-/

namespace Sys2Proof.Machine

/-- FLIT_SEND (R333). The port, and the classes that its arbiter turns to, in order. -/
def execFlitSend (p : Nat) (picks : List Nat) (s : State) : Host.Outcome State Fault Refusal :=
  s.carry fun b => (b.flitSend p picks).seamAll

/-- NORMAL_FLIT (R346). -/
def execNormalFlit (p : Nat) (air : Air) (now : Nat) (s : State) : Host.Outcome State Fault Refusal :=
  s.carry fun b => b.recvFlit p air 0 now

/-- IDLE_FLIT (R346). -/
def execIdleFlit (p : Nat) (air : Air) (now : Nat) (s : State) : Host.Outcome State Fault Refusal :=
  s.carry fun b => b.recvFlit p air 1 now

/-- NAK_FLIT (R350). -/
def execNakFlit (p : Nat) (air : Air) (now : Nat) (s : State) : Host.Outcome State Fault Refusal :=
  s.carry fun b => b.recvFlit p air 2 now

/-- INIT_MESSAGE (R365). -/
def execInitMessage (p : Nat) (air : Air) (now : Nat) (s : State) : Host.Outcome State Fault Refusal :=
  s.carry fun b => b.recvFlit p air 3 now

/-- CREDIT_ADV (R365). The next message of the CONTROL flit accepted in INIT. -/
def execCreditAdv (p : Nat) (m : Slot) (s : State) : Host.Outcome State Fault Refusal :=
  s.carry fun b => b.nextAdv p m

/-- REPLAY_TIMEOUT (R352). -/
def execReplayTimeout (p : Nat) (s : State) : Host.Outcome State Fault Refusal :=
  s.carry fun b => b.replayTimeout p

/-- INIT_TIMEOUT (R367). -/
def execInitTimeout (p : Nat) (s : State) : Host.Outcome State Fault Refusal :=
  s.carry fun b => b.initTimeout p

/-- AUTO_RETRAIN (R364). -/
def execAutoRetrain (p : Nat) (s : State) : Host.Outcome State Fault Refusal :=
  s.carry fun b => b.autoRetrain p

end Sys2Proof.Machine
end

