-- ==== Sys2Proof/Machine/CmdManage.lean ====
section
/-!
DEFINITION. Meanings: the management bus Mildom and JTAG (chapter 14).
-/

namespace Sys2Proof.Machine

/-- Mildom REG_READ (R513, Table 14.2). -/
def Block.mildomRead (b : Block) (reg crc : Nat) (d : Darn) : Block :=
  b.mildom (BitVec.ofNat 8 1 :: toBytes 2 reg) crc fun b =>
    let (b, v) := b.readReg (reg % 65536) d
    b.mildomAnswer 0 (toBytes 8 v.toNat)

/-- Mildom REG_WRITE (R515, Table 14.2): a privileged write. -/
def Block.mildomWrite (b : Block) (reg : Nat) (v : Word) (d : Darn) (crc : Nat) : Block :=
  b.mildom (BitVec.ofNat 8 2 :: toBytes 2 reg ++ toBytes 8 v.toNat) crc fun b =>
    (b.regWrite true (reg % 65536) v d).mildomAnswer 0 []

/-- JTAG REG_ACCESS (R519): a privileged write or read, refused once the key root is written. -/
def Block.jtagReg (b : Block) (write : Bool) (reg : Nat) (v : Word) (d : Darn) : Block :=
  if b.jtagShut then b
  else if write then (b.remoteWrite reg v d).jtag 6 v.toNat
  else
    let (b, x) := b.readReg reg d
    b.jtag 6 x.toNat

/-- JTAG FUSE_WRITE (R519, R545). -/
def Block.jtagFuse (b : Block) (code : Nat) : Block := if b.jtagShut then b else (b.jtag 7 code).fuseWrite code 0x10

/-- ENTDAA (R516). The dynamic address. -/
def execEntdaa (addr : Nat) (s : State) : Host.Outcome State Fault Refusal :=
  s.run fun b => b.entdaa addr

/-- MILDOM_REG_READ (R513). Word index with what the check of a counter finds, and the CRC that came. -/
def execMildomRegRead (reg : Checked Nat) (crc : Nat) (s : State) : Host.Outcome State Fault Refusal :=
  s.run fun b => b.mildomRead reg.what crc reg.d

/-- MILDOM_REG_WRITE (R515). Word index, value with what the check of a counter finds, and the CRC that came. -/
def execMildomRegWrite (reg : Nat) (v : Checked Word) (crc : Nat) (s : State) : Host.Outcome State Fault Refusal :=
  s.run fun b => b.mildomWrite reg v.what v.d crc

/-- IMAGE_OFFER (R424). -/
def execImageOffer (len crc : Nat) (s : State) : Host.Outcome State Fault Refusal :=
  s.run fun b => b.imageOffer len crc

/-- IMAGE_DATA (R424). -/
def execImageData (off : Nat) (data : List Byte) (crc : Nat) (s : State) : Host.Outcome State Fault Refusal :=
  s.run fun b => b.imageData off data crc

/-- IMAGE_END (R426), or a request with a command byte outside Table 14.2 (R514). -/
def execImageEnd (q : MildomReq) (s : State) : Host.Outcome State Fault Refusal :=
  s.run fun b => b.imageEnd q

/-- IMAGE_CHECK_DONE (R426). Whether the digest and the signature verify. -/
def execImageCheckDone (digest sig : Bool) (s : State) : Host.Outcome State Fault Refusal :=
  s.run fun b => b.offerChecked digest sig

/-- MILDOM_RESET (R515). -/
def execMildomReset (level crc : Nat) (s : State) : Host.Outcome State Fault Refusal :=
  s.run fun b => b.mildomReset level crc

/-- BYPASS (R517). -/
def execBypass (s : State) : Host.Outcome State Fault Refusal :=
  s.run fun b => b.jtag 0 0

/-- IDCODE (R519). -/
def execIdcode (s : State) : Host.Outcome State Fault Refusal :=
  s.run fun b => b.jtag 1 Sys2Proof.Machine.idcode

/-- SAMPLE_PRELOAD (R517). The pins as sampled, the value shifted in. -/
def execSamplePreload (sampled preload : Nat) (s : State) : Host.Outcome State Fault Refusal :=
  s.run fun b => b.sample sampled preload

/-- EXTEST (R518). -/
def execExtest (s : State) : Host.Outcome State Fault Refusal :=
  s.run fun b => b.extest 3

/-- EXTEST_PULSE (R518). -/
def execExtestPulse (s : State) : Host.Outcome State Fault Refusal :=
  s.run fun b => b.extest 4

/-- EXTEST_TRAIN (R518). -/
def execExtestTrain (s : State) : Host.Outcome State Fault Refusal :=
  s.run fun b => b.extest 5

/-- REG_ACCESS (R519). A write or a read, the word index, the value with what the check of a counter finds. -/
def execRegAccess (write : Bool) (reg : Nat) (v : Checked Word) (s : State) : Host.Outcome State Fault Refusal :=
  s.run fun b => b.jtagReg write reg v.what v.d

/-- FUSE_WRITE (R545). The variant code. -/
def execFuseWrite (code : Nat) (s : State) : Host.Outcome State Fault Refusal :=
  s.run fun b => b.jtagFuse code

/-- MBIST (R517). What stays unrepaired, as for SRAM_SELF_TEST. -/
def execMbist (eng port : Nat) (other : Bool) (s : State) : Host.Outcome State Fault Refusal :=
  s.run fun b => b.mbist eng port other

end Sys2Proof.Machine
end

