-- ==== Sys2Proof/Machine/CmdPilot.lean ====
section
/-!
DEFINITION. Meanings: the pilot lane, its messages, training, the seam (chapters 10 and 13).
-/

namespace Sys2Proof.Machine

/-- PILOT_SYMBOL_LOCK (R384). The blocks that came at one boundary. -/
def execPilotSymbolLock (p : Nat) (m : List PilotBlock) (s : State) : Host.Outcome State Fault Refusal :=
  s.carry fun b => b.pilotLocked p m

/-- PILOT_LOCK_LOSS (R384). The port, and the blocks that came. -/
def execPilotLockLoss (r : PilotRun) (s : State) : Host.Outcome State Fault Refusal :=
  s.carry fun b => if b.pilotOn r.p then b.pilotSee r.p r.m else b

/-- PILOT_LOSS_TIMEOUT (R367). -/
def execPilotLossTimeout (p : Nat) (s : State) : Host.Outcome State Fault Refusal :=
  s.carry fun b => b.pilotLossTimeout p

/-- PILOT_MESSAGE_SEND (R385, R387). The message due, the IDLE messages before it, fabric time. -/
def execPilotMessageSend (p mtype idles now : Nat) (s : State) : Host.Outcome State Fault Refusal :=
  s.carry fun b => ((b.clock now).pilotIdles p idles).pilotSend p mtype

/-- PILOT_IDLE (R387). -/
def execPilotIdle (p : Nat) (m : List PilotBlock) (s : State) : Host.Outcome State Fault Refusal :=
  s.carry fun b => b.pilotIn p 0 m fun b _ => b

/-- PILOT_TICK (R478). -/
def execPilotTick (p : Nat) (m : List PilotBlock) (now : Nat) (s : State) : Host.Outcome State Fault Refusal :=
  s.carry fun b => b.pilotIn p 1 m fun b m => b.onTick p m now

/-- PILOT_TIME (R438). -/
def execPilotTime (p : Nat) (m : List PilotBlock) (now : Nat) (s : State) : Host.Outcome State Fault Refusal :=
  s.carry fun b => b.pilotIn p 2 m fun b m => b.onTime p m now

/-- PARENT_LOSS (R480). Whether two TICKs in a row have failed. -/
def execParentLoss (missed : Bool) (s : State) : Host.Outcome State Fault Refusal :=
  s.carry fun b => b.parentLoss missed

/-- LINK_STATE (R391). -/
def execLinkState (p : Nat) (m : List PilotBlock) (s : State) : Host.Outcome State Fault Refusal :=
  s.carry fun b => b.pilotIn p 3 m fun b m => b.onLinkState p m

/-- TRAIN (R390). -/
def execTrain (p : Nat) (m : List PilotBlock) (s : State) : Host.Outcome State Fault Refusal :=
  s.carry fun b => b.pilotIn p 4 m fun b m => b.onTrain p m

/-- CAPS (R393). -/
def execCaps (p : Nat) (m : List PilotBlock) (s : State) : Host.Outcome State Fault Refusal :=
  s.carry fun b => b.pilotIn p 5 m fun b m => b.onCaps p m

/-- SEAM (R413). -/
def execSeam (p : Nat) (m : List PilotBlock) (s : State) : Host.Outcome State Fault Refusal :=
  s.carry fun b => b.pilotIn p 6 m fun b m => b.onSeam p m

/-- SEAM_RESULT (R414). -/
def execSeamResult (p : Nat) (m : List PilotBlock) (s : State) : Host.Outcome State Fault Refusal :=
  s.carry fun b => b.pilotIn p 7 m fun b m => b.onSeamResult p m

/-- NO_SEAM_TIMEOUT (R413). -/
def execNoSeamTimeout (p : Nat) (s : State) : Host.Outcome State Fault Refusal :=
  s.carry fun b => b.noSeam p

/-- DELAY_REQ_SEND (R409). -/
def execDelayReqSend (p now : Nat) (s : State) : Host.Outcome State Fault Refusal :=
  s.carry fun b => b.delaySend p now

/-- DELAY_REQ (R409). Times of its arrival and of its answer's leaving. -/
def execDelayReq (p : Nat) (m : List PilotBlock) (t2 t3 : Nat) (s : State) : Host.Outcome State Fault Refusal :=
  s.carry fun b => b.pilotIn p 8 m fun b m => b.onDelayReq p m t2 t3

/-- DELAY_RESP (R410). Time of its arrival. -/
def execDelayResp (p : Nat) (m : List PilotBlock) (t4 : Nat) (s : State) : Host.Outcome State Fault Refusal :=
  s.carry fun b => b.pilotIn p 9 m fun b m => b.onDelayResp p m t4

/-- PILOT_STEP_END (R392). -/
def execPilotStepEnd (p : Nat) (s : State) : Host.Outcome State Fault Refusal :=
  s.carry fun b => b.pilotStep p

/-- RATE_STEP_END (R393). -/
def execRateStepEnd (p : Nat) (s : State) : Host.Outcome State Fault Refusal :=
  s.carry fun b => b.stepDone p 2

/-- DETECT_STEP_END (R394). -/
def execDetectStepEnd (p : Nat) (s : State) : Host.Outcome State Fault Refusal :=
  s.carry fun b => b.stepDone p 3

/-- ORDER_STEP_END (R395). The identity that each lane brings, and fabric time. -/
def execOrderStepEnd (p : Nat) (ids : Air) (now : Nat) (s : State) : Host.Outcome State Fault Refusal :=
  s.carry fun b => (b.clock now).orderStep p ids

/-- FOM_WINDOW_END (R400). What each lane's window brought, and its eye height. -/
def execFomWindowEnd (p : Nat) (wins : List (List (Nat × List Nat))) (ehs : List Nat) (s : State) : Host.Outcome State Fault Refusal :=
  s.carry fun b => b.fomWindow p wins ehs

/-- ADAPT_STEP_END (R401). Peaking, gain and feedback taps of each lane. -/
def execAdaptStepEnd (p : Nat) (settings : List (Nat × Nat × List Nat)) (s : State) : Host.Outcome State Fault Refusal :=
  s.carry fun b => b.adaptStep p settings

/-- ALIGN_STEP_END (R396). -/
def execAlignStepEnd (p : Nat) (s : State) : Host.Outcome State Fault Refusal :=
  s.carry fun b => b.alignStep p

/-- FEC_LOCK_STEP_END (R397). -/
def execFecLockStepEnd (p : Nat) (s : State) : Host.Outcome State Fault Refusal :=
  s.carry fun b => b.fecStep p

/-- TRAINING_STEP_TIMEOUT (R398). -/
def execTrainingStepTimeout (p : Nat) (s : State) : Host.Outcome State Fault Refusal :=
  s.carry fun b => b.stepTimeout p

/-- MARKER_CODEWORD (R341). The levels that came before it, those of the marker's place on each lane, and fabric time. -/
def execMarkerCodeword (p : Nat) (air mark : Air) (now : Nat) (s : State) : Host.Outcome State Fault Refusal :=
  s.carry fun b => (b.clock now).marker p air mark

/-- PILOT_MESSAGE_DISCARD (R385). -/
def execPilotMessageDiscard (p : Nat) (m : List PilotBlock) (s : State) : Host.Outcome State Fault Refusal :=
  s.carry fun b => b.pilotDiscard p m

/-- TICK_MASTER_WAIT_END (R468). -/
def execTickMasterWaitEnd (s : State) : Host.Outcome State Fault Refusal :=
  s.carry fun b => b.masterWaitEnd

/-- PORT_POWER_UP_DONE (R525). -/
def execPortPowerUpDone (p : Nat) (s : State) : Host.Outcome State Fault Refusal :=
  s.run fun b => b.powerUpDone p

/-- BITSLIP_DONE (R396). -/
def execBitslipDone (p : Nat) (s : State) : Host.Outcome State Fault Refusal :=
  s.carry fun b => b.bitslipDone p

end Sys2Proof.Machine
end

