-- ==== Sys2Proof/Machine/CmdRequester.lean ====
section
/-!
DEFINITION. Meanings: descriptors and the commands they become (chapter 3).
-/

namespace Sys2Proof.Machine

/-- The opcodes of Table 3.2. -/
def descOps : List Nat := [0x00, 0x01, 0x02, 0x03, 0x04, 0x10, 0x11, 0x12, 0x13, 0x14, 0x15]

/-- Descriptors that no row of the command table names, at the head of a queue: an opcode outside Table 3.2 (R98), or a
read that carried an uncorrectable error. They are admitted, and finish with the status that admission gives. By fuel. -/
def Block.admitOdd : Nat → Block → Nat → Block
  | 0, b, _ => b
  | n + 1, b, s =>
    match b.admissible s with
    | none => b
    | some f =>
      if (f.desc.map fun d => descOps.contains (dOp d)).getD false then b
      else Block.admitOdd n (b.admitDesc s f).reqPump s

/-- The descriptor at the head of a stream's queue is admitted where its opcode is `op` (R90, R98). -/
def Block.descriptor (b : Block) (op s : Nat) : Block :=
  let b := b.admitOdd 64 s
  match b.admissible s with
  | none => b
  | some f => if (f.desc.map dOp) == some op then (b.admitDesc s f).reqPump.covers else b

/-- A TICK descriptor's edge has come: it is issued, and its stream goes on (Table 3.2). -/
def Block.tickEnds (b : Block) (s : Nat) : Block :=
  match b.tickHoldEnd s with
  | none => b
  | some b => b.reqPump.covers

/-- A command of a queue whose packets are all covered completes (R115). -/
def Block.completion (b : Block) (id : Nat) : Block :=
  match b.cmd? id with
  | none => b
  | some c => if !c.ofFold && b.covered c then (b.complete c).soloCheck.reqPump.covers else b

/-- A command whose timeout has passed at the last tick edge (R127). -/
def Block.expire (b : Block) (id : Nat) : Block :=
  match b.cmd? id with
  | none => b
  | some c => if b.timedOut c then (b.timeout c).reqPump.covers else b

/-- FSYNC sent again on a broken flow that has waited for FOLD.TIMEOUT (R123). -/
def Block.fsyncAgain (b : Block) (peer cls : Nat) : Block :=
  match (b.flow peer cls).broken with
  | none => b
  | some br =>
    if br.sent == 0 || b.issueHeld || b.time.now < br.sentAt + msUnits (b.rf (fo 0x068) 15 0) then b
    else b.sendFsync peer cls

/-- A TAG held back becomes free (R114). -/
def Block.tagFreed (b : Block) (tag : Nat) : Block :=
  { b with req := { b.req with held := b.req.held.filter fun h => h.tag != tag || decide (b.time.now < h.until_) } }.reqPump

/-- NOP (R95). The stream whose queue holds it at its head. -/
def execNop (st : Nat) (s : State) : Host.Outcome State Fault Refusal :=
  s.carry fun b => b.descriptor 0x00 st

/-- COPY (R106). The stream whose queue holds it at its head. -/
def execCopy (st : Nat) (s : State) : Host.Outcome State Fault Refusal :=
  s.carry fun b => b.descriptor 0x01 st

/-- PUT (R106). The stream whose queue holds it at its head. -/
def execPut (st : Nat) (s : State) : Host.Outcome State Fault Refusal :=
  s.carry fun b => b.descriptor 0x02 st

/-- GET (R108). The stream whose queue holds it at its head. -/
def execGet (st : Nat) (s : State) : Host.Outcome State Fault Refusal :=
  s.carry fun b => b.descriptor 0x03 st

/-- ATOMIC (R105). The stream whose queue holds it at its head. -/
def execAtomic (st : Nat) (s : State) : Host.Outcome State Fault Refusal :=
  s.carry fun b => b.descriptor 0x04 st

/-- DESC_REDUCE (R107). The stream whose queue holds it at its head. -/
def execDescReduce (st : Nat) (s : State) : Host.Outcome State Fault Refusal :=
  s.carry fun b => b.descriptor 0x10 st

/-- DESC_CAS16 (R105). The stream whose queue holds it at its head. -/
def execDescCas16 (st : Nat) (s : State) : Host.Outcome State Fault Refusal :=
  s.carry fun b => b.descriptor 0x11 st

/-- DESC_SIGNAL (R103). The stream whose queue holds it at its head. -/
def execDescSignal (st : Nat) (s : State) : Host.Outcome State Fault Refusal :=
  s.carry fun b => b.descriptor 0x12 st

/-- FOLD (R214). The stream whose queue holds it at its head. -/
def execFold (st : Nat) (s : State) : Host.Outcome State Fault Refusal :=
  s.carry fun b => b.descriptor 0x13 st

/-- WRING (R203). The stream whose queue holds it at its head. -/
def execWring (st : Nat) (s : State) : Host.Outcome State Fault Refusal :=
  s.carry fun b => b.descriptor 0x14 st

/-- DESC_TICK (R95). The stream whose queue holds it at its head. -/
def execDescTick (st : Nat) (s : State) : Host.Outcome State Fault Refusal :=
  s.carry fun b => b.descriptor 0x15 st

/-- TICK_HOLD_END (R95). The stream. -/
def execTickHoldEnd (st : Nat) (s : State) : Host.Outcome State Fault Refusal :=
  s.carry fun b => b.tickEnds st

/-- COMMAND_COMPLETION (R115). The command, by its number in order of admission. -/
def execCommandCompletion (id : Nat) (s : State) : Host.Outcome State Fault Refusal :=
  s.carry fun b => b.completion id

/-- COMMAND_TIMEOUT (R127). The command, by its number in order of admission. -/
def execCommandTimeout (id : Nat) (s : State) : Host.Outcome State Fault Refusal :=
  s.carry fun b => b.expire id

/-- FSYNC_RETRY (R123). The flow. -/
def execFsyncRetry (peer cls : Nat) (s : State) : Host.Outcome State Fault Refusal :=
  s.carry fun b => b.fsyncAgain peer cls

/-- TAG_HOLD_END (R114). -/
def execTagHoldEnd (tag : Nat) (s : State) : Host.Outcome State Fault Refusal :=
  s.carry fun b => b.tagFreed tag

end Sys2Proof.Machine
end

