-- ==== Sys2Proof/Machine/CmdReset.lean ====
section
/-!
DEFINITION. Meanings: Rinse, resets, watchdog (chapter 12).
-/

namespace Sys2Proof.Machine

/-- RINSE_REQUEST (R453). The request bit is 1. -/
def execRinseRequest (rp : Rp) (v : Word) (s : State) : Host.Outcome State Fault Refusal :=
  s.run fun b => b.portGate false rp (cx 0x050) (setBit v 12 true) fun b => b.rinseWrite (setBit v 12 true)

/-- RINSE_START (R454). -/
def execRinseStart (s : State) : Host.Outcome State Fault Refusal :=
  s.run fun b => b.rinseStart.covers

/-- RINSE_COMPLETE (R455). -/
def execRinseComplete (s : State) : Host.Outcome State Fault Refusal :=
  s.run fun b => b.rinseComplete

/-- CONTEXT_HOLD_WRITE (R451). -/
def execContextHoldWrite (rp : Rp) (v : Word) (s : State) : Host.Outcome State Fault Refusal :=
  s.run fun b => b.portGate false rp (cx 0x048) v fun b => b.ctxWrite v

/-- SOLO_WRITE (R452). -/
def execSoloWrite (rp : Rp) (v : Word) (s : State) : Host.Outcome State Fault Refusal :=
  s.run fun b => b.portGate false rp (cx 0x058) v fun b => b.soloWrite v

/-- RESET_REQUEST_ENGINE (R459). ENGINE. -/
def execResetRequestEngine (rp : Rp) (e : Nat) (s : State) : Host.Outcome State Fault Refusal :=
  s.run fun b => b.portGate false rp (rs 0x040) (word (2 ^ 61 + e % 16)) fun b => b.resetRequest (word (2 ^ 61 + e % 16))

/-- SEQUENCER_RESET (R460). -/
def execSequencerReset (rp : Rp) (s : State) : Host.Outcome State Fault Refusal :=
  s.run fun b => b.portGate false rp (rs 0x040) (word (2 ^ 61 + 12)) fun b => b.resetRequest (word (2 ^ 61 + 12))

/-- ENGINE_RESET_DONE (R459). The engine, 12 for the sequencer; whether its run passes. -/
def execEngineResetDone (e : Nat) (ok : Bool) (s : State) : Host.Outcome State Fault Refusal :=
  s.run fun b => b.engineResetDone e ok

/-- RESET_REQUEST_COMPUTE (R462). -/
def execResetRequestCompute (rp : Rp) (s : State) : Host.Outcome State Fault Refusal :=
  s.run fun b => b.portGate false rp (rs 0x040) (word (2 * 2 ^ 61)) fun b => b.resetRequest (word (2 * 2 ^ 61))

/-- CONTROL_POISON (R463). -/
def execControlPoison (s : State) : Host.Outcome State Fault Refusal :=
  s.run fun b => b.controlPoison

/-- COMPUTE_RESET_DRAINED (R462). -/
def execComputeResetDrained (s : State) : Host.Outcome State Fault Refusal :=
  s.run fun b => b.computeDrained

/-- RESET_RELEASE (R464). -/
def execResetRelease (rp : Rp) (s : State) : Host.Outcome State Fault Refusal :=
  s.run fun b => b.portGate false rp (rs 0x040) (word (2 ^ 60)) fun b => b.resetRequest (word (2 ^ 60))

/-- RESET_REQUEST_BLOCK (R467). -/
def execResetRequestBlock (rp : Rp) (s : State) : Host.Outcome State Fault Refusal :=
  s.run fun b => b.portGate false rp (rs 0x040) (word (3 * 2 ^ 61)) fun b => b.resetRequest (word (3 * 2 ^ 61))

/-- RINSE_DEADLINE (R472). -/
def execRinseDeadline (s : State) : Host.Outcome State Fault Refusal :=
  s.run fun b => b.rinseDeadline

/-- ENGINE_DEADLINE (R472). -/
def execEngineDeadline (s : State) : Host.Outcome State Fault Refusal :=
  s.run fun b => b.engineDeadline

/-- COMPUTE_DEADLINE (R472). -/
def execComputeDeadline (s : State) : Host.Outcome State Fault Refusal :=
  s.run fun b => b.computeDeadline

/-- BLOCK_DEADLINE (R467). -/
def execBlockDeadline (s : State) : Host.Outcome State Fault Refusal :=
  s.run fun b => b.blockDeadline

/-- ENGINE_HUNG (R461). The engine, 12 for the sequencer, and fabric time. -/
def execEngineHung (e : Timed Nat) (s : State) : Host.Outcome State Fault Refusal :=
  s.run fun b => b.engineHung e.what e.now

/-- WATCHDOG_KICK (R469). Whether the running firmware writes. -/
def execWatchdogKick (firmware : Bool) (v : RpWord) (s : State) : Host.Outcome State Fault Refusal :=
  s.run fun b => b.watchdogKick firmware v.v v.wchk

/-- WATCHDOG_BITE (R469). Fabric time. -/
def execWatchdogBite (now : Nat) (s : State) : Host.Outcome State Fault Refusal :=
  s.run fun b => b.watchdogBite now

/-- MANAGEMENT_RESTART_DONE (R428). -/
def execManagementRestartDone (s : State) : Host.Outcome State Fault Refusal :=
  s.run fun b => b.coreRestarted

end Sys2Proof.Machine
end

