-- ==== Sys2Proof/Machine/CmdStartup.lean ====
section
/-!
DEFINITION. Meanings: cold reset, start-up, the thermal trip (chapters 11 and 14).
-/

namespace Sys2Proof.Machine

/-- COLD_RST_ASSERT (R511). -/
def execColdRstAssert (s : State) : Host.Outcome State Fault Refusal :=
  s.act fun b => b.coldAssert

/-- COLD_RST_RELEASE (R416). CSEL, the coordinate straps and the provisional ID's random bits. -/
def execColdRstRelease (csel : Bool) (x y prov : Nat) (s : State) : Host.Outcome State Fault Refusal :=
  s.act fun b => b.coldRelease csel x y prov

/-- FUSE_LOAD (R416). Whether the two reads agree. -/
def execFuseLoad (agree : Bool) (s : State) : Host.Outcome State Fault Refusal :=
  s.run fun b => b.fuseLoad agree

/-- SRAM_SELF_TEST (R423). Engines and ports whose SRAM stays unrepaired, by mask; whether another SRAM does. -/
def execSramSelfTest (eng port : Nat) (other : Bool) (s : State) : Host.Outcome State Fault Refusal :=
  s.run fun b => b.sramSelfTest eng port other

/-- MANAGEMENT_BOOT (R424). -/
def execManagementBoot (s : State) : Host.Outcome State Fault Refusal :=
  s.run fun b => b.managementBoot

/-- STARTUP_TRAINING_END (R418). -/
def execStartupTrainingEnd (s : State) : Host.Outcome State Fault Refusal :=
  s.run fun b => b.trainingEnd

/-- KNOWN_ANSWER_RUN (R440). Engines that fail, by mask; whether the sequencer passes. -/
def execKnownAnswerRun (eng : Nat) (seqOk : Bool) (s : State) : Host.Outcome State Fault Refusal :=
  s.run fun b => b.knownAnswer eng seqOk

/-- THERMTRIP (R527). -/
def execThermtrip (s : State) : Host.Outcome State Fault Refusal :=
  s.run fun b => b.thermtrip

end Sys2Proof.Machine
end

