-- ==== Sys2Proof/Machine/CmdWindow.lean ====
section
/-!
DEFINITION. Meanings: the register window, and the writes of chapters 2 to 10 that have a command of their own.
-/

namespace Sys2Proof.Machine

/-- Window word of an entry register that advances an index when it is read (R548). -/
def indexedWord : IndexedReg → Nat
  | .segmap => sg 0x048
  | .ctr => ct 0x048
  | .pstore x => regAt (0x41 + x) 0x050
  | .route => rt 0x060
  | .ctxt => cx 0x048
  | .plain w => w

/-- REGISTER_WRITE (R532). Privilege, word index, value with what the check of a counter finds, RP_WCHK. -/
def execRegisterWrite (priv : Bool) (reg : Nat) (v : Checked Word) (wchk : Nat) (s : State) : Host.Outcome State Fault Refusal :=
  s.run fun b => b.portWrite priv reg v.what v.d wchk

/-- INDEXED_ENTRY_READ (R548), and a read of any other register by the port (R281, R284). The register read, RP_WDATA and RP_WCHK, and
what the check of a counter finds. -/
def execIndexedEntryRead (t : Checked (RpRead IndexedReg)) (s : State) : Host.Outcome State Fault Refusal :=
  s.run fun b => b.portRead (indexedWord t.what.what) t.d t.what.wdata t.what.wchk

/-- STREAM_ENABLE (R85). Which of the four enable registers. -/
def execStreamEnable (rp : Rp) (k : Nat) (v : Word) (s : State) : Host.Outcome State Fault Refusal :=
  s.run fun b => b.portGate false rp (fo (0x048 + 8 * k)) v fun b => b.streamEnable k v

/-- DOORBELL (R87). -/
def execDoorbell (st : Nat) (v : RpWord) (s : State) : Host.Outcome State Fault Refusal :=
  s.run fun b => b.portGate true (anyRp v) (fo (0x800 + 8 * st)) v.v fun b => b.doorbell st v.v

/-- KERNEL_BOUNDARY_COMMAND (R277). The value written, and what the check of the counter finds. -/
def execKernelBoundaryCommand (v : Checked RpWord) (s : State) : Host.Outcome State Fault Refusal :=
  s.run fun b => b.portGate true (anyRp v.what) (hc 0 0x840) v.what.v fun b => b.kernelBoundary v.what.v v.d

/-- SEGMAP_ENTRY_WRITE (R55). -/
def execSegmapEntryWrite (rp : Rp) (v : Word) (s : State) : Host.Outcome State Fault Refusal :=
  s.run fun b => b.portGate false rp (sg 0x048) v fun b => b.segmapWrite v

/-- SEGMAP_FENCE_REQUEST (R74). REQUEST is 1. -/
def execSegmapFenceRequest (rp : Rp) (v : Word) (s : State) : Host.Outcome State Fault Refusal :=
  s.run fun b => b.portGate false rp (sg 0x050) (setBit v 0 true) fun b => b.segFenceWrite (setBit v 0 true)

/-- SEGMAP_FENCE_DONE (R74). -/
def execSegmapFenceDone (s : State) : Host.Outcome State Fault Refusal :=
  s.run fun b => b.segFenceDone

/-- KEY_ROOT_WRITE (R59). -/
def execKeyRootWrite (rp : Rp) (v : Word) (s : State) : Host.Outcome State Fault Refusal :=
  s.run fun b => b.portGate false rp (sg 0x078) v fun b => b.keyRootWrite v

/-- DERIVE_IN_WRITE (R60). -/
def execDeriveInWrite (rp : Rp) (v : Word) (s : State) : Host.Outcome State Fault Refusal :=
  s.run fun b => b.portGate false rp (sg 0x088) v fun b => b.store (sg 0x088) v

/-- CTR_VALUE_WRITE (R175). -/
def execCtrValueWrite (rp : Rp) (v : Word) (s : State) : Host.Outcome State Fault Refusal :=
  s.run fun b => b.portGate false rp (ct 0x048) v fun b => b.ctrValueWrite v

/-- CTR_ADD_WRITE (R175). The value written, and what the check of the counter finds. -/
def execCtrAddWrite (rp : Rp) (v : Checked Word) (s : State) : Host.Outcome State Fault Refusal :=
  s.run fun b => b.portGate false rp (ct 0x050) v.what fun b => b.ctrAddWrite v.what v.d

/-- CTR_GROUP_ENTRY_WRITE (R68). -/
def execCtrGroupEntryWrite (rp : Rp) (v : Word) (s : State) : Host.Outcome State Fault Refusal :=
  s.run fun b => b.portGate false rp (ct 0x068) v fun b => b.ctrGroupWrite v

/-- CTR_FENCE_REQUEST (R176). REQUEST is 1. -/
def execCtrFenceRequest (rp : Rp) (v : Word) (s : State) : Host.Outcome State Fault Refusal :=
  s.run fun b => b.portGate false rp (ct 0x070) (setBit v 0 true) fun b => b.ctrFenceWrite (setBit v 0 true)

/-- CTR_FENCE_DONE (R176). -/
def execCtrFenceDone (s : State) : Host.Outcome State Fault Refusal :=
  s.run fun b => b.ctrFenceDone

/-- MIRROR_WRITE (R157). The counter, and what its check finds. -/
def execMirrorWrite (ctr : Checked Nat) (s : State) : Host.Outcome State Fault Refusal :=
  s.run fun b => b.mirrorWrite ctr.what ctr.d

/-- PROFILE_WRITE (R188). The profile. -/
def execProfileWrite (rp : Rp) (p : Nat) (v : Word) (s : State) : Host.Outcome State Fault Refusal :=
  s.run fun b => b.portGate false rp (mg 0 (0x800 + 8 * p)) v fun b => b.profileWrite p v

/-- SEED_WRITE (R197). -/
def execSeedWrite (rp : Rp) (v : Word) (s : State) : Host.Outcome State Fault Refusal :=
  s.run fun b => b.portGate false rp (mg 0 0x908) v fun b => b.seedWrite v

/-- UCODE_LOAD_REQUEST (R212). REQUEST is 1. -/
def execUcodeLoadRequest (rp : Rp) (e : Nat) (v : Word) (s : State) : Host.Outcome State Fault Refusal :=
  s.run fun b => b.portGate false rp (mg e 0x078) (setBit v 0 true) fun b => b.ucodeLoad e (setBit v 0 true)

/-- UCODE_LOAD_DONE (R212). Whether digest and signature verify, and whether the run passes. -/
def execUcodeLoadDone (e : Nat) (digest sig ok : Bool) (s : State) : Host.Outcome State Fault Refusal :=
  s.run fun b => b.ucodeLoadDone e digest sig ok

/-- ENGINE_QUIESCE (R211). -/
def execEngineQuiesce (rp : Rp) (e : Nat) (v : Word) (s : State) : Host.Outcome State Fault Refusal :=
  s.run fun b => b.portGate false rp (mg e 0x010) v fun b => b.engineControl e v

/-- HOST_CHANNEL_QUIESCE (R280). -/
def execHostChannelQuiesce (rp : Rp) (n : Nat) (v : Word) (s : State) : Host.Outcome State Fault Refusal :=
  s.run fun b => b.portGate false rp (hc n 0x010) v fun b => b.chanControl n v

/-- HOST_CHANNEL_DISABLE (R537). -/
def execHostChannelDisable (rp : Rp) (n : Nat) (v : Word) (s : State) : Host.Outcome State Fault Refusal :=
  s.run fun b => b.portGate false rp (hc n 0x010) v fun b => b.chanControl n v

/-- LINK_QUIESCE (R366). -/
def execLinkQuiesce (rp : Rp) (p : Nat) (v : Word) (s : State) : Host.Outcome State Fault Refusal :=
  s.run fun b => b.portGate false rp (lk p 0x010) v fun b => b.store (lk p 0x010) v

/-- HOST_CHANNEL_MAP_WRITE (R279). Which of the six registers from HC0.INTERLEAVE to HC0.HOST_CAPS, in offset order.
-/
def execHostChannelMapWrite (rp : Rp) (k : Nat) (v : Word) (s : State) : Host.Outcome State Fault Refusal :=
  s.run fun b => b.portGate false rp (hc 0 (0x800 + 8 * k)) v fun b => b.mapWrite (0x800 + 8 * k) v

/-- PSTORE_HIGH_WRITE (R254). -/
def execPstoreHighWrite (rp : Rp) (x : Nat) (v : Word) (s : State) : Host.Outcome State Fault Refusal :=
  s.run fun b => b.portGate false rp (regAt (0x41 + x) 0x050) v fun b => b.pstoreHigh x v

/-- PSTORE_LOW_READ (R254). -/
def execPstoreLowRead (x : RpRead Nat) (s : State) : Host.Outcome State Fault Refusal :=
  s.run fun b => b.portRead (regAt (0x41 + x.what) 0x048) .good x.wdata x.wchk

/-- PSTORE_LOCK_WRITE (R221). -/
def execPstoreLockWrite (rp : Rp) (v : Word) (s : State) : Host.Outcome State Fault Refusal :=
  s.run fun b => b.portGate false rp (fo 0x100) v fun b => b.pstoreLock v

/-- LOCK_CLEAR_TAKES_EFFECT (R221). The region. -/
def execLockClearTakesEffect (g : Nat) (s : State) : Host.Outcome State Fault Refusal :=
  s.run fun b => b.lockClears g

/-- ROUTE_ENTRY_WRITE (R303). -/
def execRouteEntryWrite (rp : Rp) (v : Word) (s : State) : Host.Outcome State Fault Refusal :=
  s.run fun b => b.portGate false rp (rt 0x060) v fun b => b.routeWrite v

/-- SWITCH_TICK_WRITE (R306). -/
def execSwitchTickWrite (rp : Rp) (v : Word) (s : State) : Host.Outcome State Fault Refusal :=
  s.run fun b => b.portGate false rp (rt 0x048) v fun b => b.switchTick v

/-- ROUTE_GROUP_ENTRY_WRITE (R313). -/
def execRouteGroupEntryWrite (rp : Rp) (v : Word) (s : State) : Host.Outcome State Fault Refusal :=
  s.run fun b => b.portGate false rp (rt 0x070) v fun b => b.mcGroupWrite v

/-- HAMPER_LIMITS_WRITE (R320). -/
def execHamperLimitsWrite (rp : Rp) (v : Word) (s : State) : Host.Outcome State Fault Refusal :=
  s.run fun b => b.portGate false rp (rt 0x080) v fun b => b.hamperLimits v

/-- HAMPER_FLUSH_WRITE (R321). -/
def execHamperFlushWrite (rp : Rp) (v : Word) (s : State) : Host.Outcome State Fault Refusal :=
  s.run fun b => b.portGate false rp (rt 0x088) v fun b => b.flushWrite v

/-- HAMPER_FLUSH_DONE (R321). -/
def execHamperFlushDone (s : State) : Host.Outcome State Fault Refusal :=
  s.run fun b => b.hamperFlushDone.covers

/-- DOWN_REQ (R367). DOWN_REQ is 1. -/
def execDownReq (rp : Rp) (p : Nat) (v : Word) (s : State) : Host.Outcome State Fault Refusal :=
  s.run fun b => b.portGate false rp (lk p 0x048) (setBit v 63 true) fun b => b.linkControl p (setBit v 63 true)

/-- RETRAIN (R399). RETRAIN is 1. -/
def execRetrain (rp : Rp) (p : Nat) (v : Word) (s : State) : Host.Outcome State Fault Refusal :=
  s.run fun b => b.portGate false rp (lk p 0x048) (setBit v 62 true) fun b => b.linkControl p (setBit v 62 true)

/-- RELEASE (R364). RELEASE is 1. -/
def execRelease (rp : Rp) (p : Nat) (v : Word) (s : State) : Host.Outcome State Fault Refusal :=
  s.run fun b => b.portGate false rp (lk p 0x048) (setBit v 61 true) fun b => b.linkControl p (setBit v 61 true)

/-- CREDIT_LIMIT_WRITE (R372). -/
def execCreditLimitWrite (rp : Rp) (p : Nat) (v : Word) (s : State) : Host.Outcome State Fault Refusal :=
  s.run fun b => b.portGate false rp (lk p 0x080) v fun b => b.creditWrite p v

/-- CLASS_SHARE_WRITE (R373). -/
def execClassShareWrite (rp : Rp) (p : Nat) (v : Word) (s : State) : Host.Outcome State Fault Refusal :=
  s.run fun b => b.portGate false rp (lk p 0x0E8) v fun b => b.shareWrite p v

/-- BITSLIP_WRITE (R396). -/
def execBitslipWrite (rp : Rp) (p : Nat) (v : Word) (s : State) : Host.Outcome State Fault Refusal :=
  s.run fun b => b.portGate false rp (ln p 0x068) v fun b => b.bitslipWrite p v

/-- TEST_MODE_WRITE (R408). -/
def execTestModeWrite (rp : Rp) (p : Nat) (v : Word) (s : State) : Host.Outcome State Fault Refusal :=
  s.run fun b => b.portGate false rp (ln p 0x098) v fun b => b.testWrite p v

end Sys2Proof.Machine
end

