-- ==== Sys2Proof/Machine/Dispatch.lean ====
section
/-!
DEFINITION. The dispatch: each command to its meaning.
-/

namespace Sys2Proof.Machine

/-- The effect of a command on everything but the queue. -/
def exec (i : Instr) (s : State) : Host.Outcome State Fault Refusal :=
  match i with
  | .coldRstAssert => Sys2Proof.Machine.execColdRstAssert s
  | .coldRstRelease csel x y prov => Sys2Proof.Machine.execColdRstRelease csel x y prov s
  | .fuseLoad agree => Sys2Proof.Machine.execFuseLoad agree s
  | .sramSelfTest eng port other => Sys2Proof.Machine.execSramSelfTest eng port other s
  | .managementBoot => Sys2Proof.Machine.execManagementBoot s
  | .startupTrainingEnd => Sys2Proof.Machine.execStartupTrainingEnd s
  | .knownAnswerRun eng seqOk => Sys2Proof.Machine.execKnownAnswerRun eng seqOk s
  | .thermtrip => Sys2Proof.Machine.execThermtrip s
  | .entdaa addr => Sys2Proof.Machine.execEntdaa addr s
  | .mildomRegRead reg crc => Sys2Proof.Machine.execMildomRegRead reg crc s
  | .mildomRegWrite reg v crc => Sys2Proof.Machine.execMildomRegWrite reg v crc s
  | .imageOffer len crc => Sys2Proof.Machine.execImageOffer len crc s
  | .imageData off data crc => Sys2Proof.Machine.execImageData off data crc s
  | .imageEnd crc => Sys2Proof.Machine.execImageEnd crc s
  | .imageCheckDone digest sig => Sys2Proof.Machine.execImageCheckDone digest sig s
  | .mildomReset level crc => Sys2Proof.Machine.execMildomReset level crc s
  | .bypass => Sys2Proof.Machine.execBypass s
  | .idcode => Sys2Proof.Machine.execIdcode s
  | .samplePreload sampled preload => Sys2Proof.Machine.execSamplePreload sampled preload s
  | .extest => Sys2Proof.Machine.execExtest s
  | .extestPulse => Sys2Proof.Machine.execExtestPulse s
  | .extestTrain => Sys2Proof.Machine.execExtestTrain s
  | .regAccess write reg v => Sys2Proof.Machine.execRegAccess write reg v s
  | .fuseWrite code => Sys2Proof.Machine.execFuseWrite code s
  | .mbist eng port other => Sys2Proof.Machine.execMbist eng port other s
  | .registerWrite priv reg v wchk => Sys2Proof.Machine.execRegisterWrite priv reg v wchk s
  | .indexedEntryRead t => Sys2Proof.Machine.execIndexedEntryRead t s
  | .streamEnable priv k v => Sys2Proof.Machine.execStreamEnable priv k v s
  | .doorbell st v => Sys2Proof.Machine.execDoorbell st v s
  | .kernelBoundaryCommand v => Sys2Proof.Machine.execKernelBoundaryCommand v s
  | .segmapEntryWrite priv v => Sys2Proof.Machine.execSegmapEntryWrite priv v s
  | .segmapFenceRequest priv v => Sys2Proof.Machine.execSegmapFenceRequest priv v s
  | .segmapFenceDone => Sys2Proof.Machine.execSegmapFenceDone s
  | .keyRootWrite priv v => Sys2Proof.Machine.execKeyRootWrite priv v s
  | .deriveInWrite priv v => Sys2Proof.Machine.execDeriveInWrite priv v s
  | .ctrValueWrite priv v => Sys2Proof.Machine.execCtrValueWrite priv v s
  | .ctrAddWrite priv v => Sys2Proof.Machine.execCtrAddWrite priv v s
  | .ctrGroupEntryWrite priv v => Sys2Proof.Machine.execCtrGroupEntryWrite priv v s
  | .ctrFenceRequest priv v => Sys2Proof.Machine.execCtrFenceRequest priv v s
  | .ctrFenceDone => Sys2Proof.Machine.execCtrFenceDone s
  | .mirrorWrite ctr => Sys2Proof.Machine.execMirrorWrite ctr s
  | .profileWrite priv p v => Sys2Proof.Machine.execProfileWrite priv p v s
  | .seedWrite priv v => Sys2Proof.Machine.execSeedWrite priv v s
  | .ucodeLoadRequest priv e v => Sys2Proof.Machine.execUcodeLoadRequest priv e v s
  | .ucodeLoadDone e digest sig ok => Sys2Proof.Machine.execUcodeLoadDone e digest sig ok s
  | .engineQuiesce priv e v => Sys2Proof.Machine.execEngineQuiesce priv e v s
  | .hostChannelQuiesce priv n v => Sys2Proof.Machine.execHostChannelQuiesce priv n v s
  | .hostChannelDisable priv n v => Sys2Proof.Machine.execHostChannelDisable priv n v s
  | .linkQuiesce priv p v => Sys2Proof.Machine.execLinkQuiesce priv p v s
  | .hostChannelMapWrite priv k v => Sys2Proof.Machine.execHostChannelMapWrite priv k v s
  | .pstoreHighWrite priv x v => Sys2Proof.Machine.execPstoreHighWrite priv x v s
  | .pstoreLowRead x => Sys2Proof.Machine.execPstoreLowRead x s
  | .pstoreLockWrite priv v => Sys2Proof.Machine.execPstoreLockWrite priv v s
  | .lockClearTakesEffect g => Sys2Proof.Machine.execLockClearTakesEffect g s
  | .routeEntryWrite priv v => Sys2Proof.Machine.execRouteEntryWrite priv v s
  | .switchTickWrite priv v => Sys2Proof.Machine.execSwitchTickWrite priv v s
  | .routeGroupEntryWrite priv v => Sys2Proof.Machine.execRouteGroupEntryWrite priv v s
  | .hamperLimitsWrite priv v => Sys2Proof.Machine.execHamperLimitsWrite priv v s
  | .hamperFlushWrite priv v => Sys2Proof.Machine.execHamperFlushWrite priv v s
  | .hamperFlushDone => Sys2Proof.Machine.execHamperFlushDone s
  | .downReq priv p v => Sys2Proof.Machine.execDownReq priv p v s
  | .retrain priv p v => Sys2Proof.Machine.execRetrain priv p v s
  | .release priv p v => Sys2Proof.Machine.execRelease priv p v s
  | .creditLimitWrite priv p v => Sys2Proof.Machine.execCreditLimitWrite priv p v s
  | .classShareWrite priv p v => Sys2Proof.Machine.execClassShareWrite priv p v s
  | .bitslipWrite priv p v => Sys2Proof.Machine.execBitslipWrite priv p v s
  | .testModeWrite priv p v => Sys2Proof.Machine.execTestModeWrite priv p v s
  | .rinseRequest priv v => Sys2Proof.Machine.execRinseRequest priv v s
  | .rinseStart => Sys2Proof.Machine.execRinseStart s
  | .rinseComplete => Sys2Proof.Machine.execRinseComplete s
  | .contextHoldWrite priv v => Sys2Proof.Machine.execContextHoldWrite priv v s
  | .soloWrite priv v => Sys2Proof.Machine.execSoloWrite priv v s
  | .resetRequestEngine priv e => Sys2Proof.Machine.execResetRequestEngine priv e s
  | .sequencerReset priv => Sys2Proof.Machine.execSequencerReset priv s
  | .engineResetDone e ok => Sys2Proof.Machine.execEngineResetDone e ok s
  | .resetRequestCompute priv => Sys2Proof.Machine.execResetRequestCompute priv s
  | .controlPoison => Sys2Proof.Machine.execControlPoison s
  | .computeResetDrained => Sys2Proof.Machine.execComputeResetDrained s
  | .resetRelease priv => Sys2Proof.Machine.execResetRelease priv s
  | .resetRequestBlock priv => Sys2Proof.Machine.execResetRequestBlock priv s
  | .rinseDeadline => Sys2Proof.Machine.execRinseDeadline s
  | .engineDeadline => Sys2Proof.Machine.execEngineDeadline s
  | .computeDeadline => Sys2Proof.Machine.execComputeDeadline s
  | .blockDeadline => Sys2Proof.Machine.execBlockDeadline s
  | .engineHung e => Sys2Proof.Machine.execEngineHung e s
  | .watchdogKick firmware v => Sys2Proof.Machine.execWatchdogKick firmware v s
  | .watchdogBite ran => Sys2Proof.Machine.execWatchdogBite ran s
  | .managementRestartDone => Sys2Proof.Machine.execManagementRestartDone s
  | .fwLoadRequest priv v => Sys2Proof.Machine.execFwLoadRequest priv v s
  | .fwLoadDone digest sig => Sys2Proof.Machine.execFwLoadDone digest sig s
  | .fwActivateWrite priv v => Sys2Proof.Machine.execFwActivateWrite priv v s
  | .fwActivation digest sig => Sys2Proof.Machine.execFwActivation digest sig s
  | .fwBcastStart priv v => Sys2Proof.Machine.execFwBcastStart priv v s
  | .fwChunkSend => Sys2Proof.Machine.execFwChunkSend s
  | .topoSealWrite priv v => Sys2Proof.Machine.execTopoSealWrite priv v s
  | .featuresAgreedWrite priv v => Sys2Proof.Machine.execFeaturesAgreedWrite priv v s
  | .variantFusedWrite priv v => Sys2Proof.Machine.execVariantFusedWrite priv v s
  | .portPowerOff priv v => Sys2Proof.Machine.execPortPowerOff priv v s
  | .portPowerOn priv v => Sys2Proof.Machine.execPortPowerOn priv v s
  | .clockRequestWrite priv v => Sys2Proof.Machine.execClockRequestWrite priv v s
  | .timePeriodWrite priv v => Sys2Proof.Machine.execTimePeriodWrite priv v s
  | .becomeMasterWrite priv v => Sys2Proof.Machine.execBecomeMasterWrite priv v s
  | .ctrsClearWrite priv v => Sys2Proof.Machine.execCtrsClearWrite priv v s
  | .counterClear => Sys2Proof.Machine.execCounterClear s
  | .traceMark v => Sys2Proof.Machine.execTraceMark v s
  | .snapshotRequest priv v => Sys2Proof.Machine.execSnapshotRequest priv v s
  | .snapshot => Sys2Proof.Machine.execSnapshot s
  | .creaseTickWrite priv v => Sys2Proof.Machine.execCreaseTickWrite priv v s
  | .creaseCut => Sys2Proof.Machine.execCreaseCut s
  | .creaseResumeWrite priv v => Sys2Proof.Machine.execCreaseResumeWrite priv v s
  | .creaseResume => Sys2Proof.Machine.execCreaseResume s
  | .nop st => Sys2Proof.Machine.execNop st s
  | .copy st => Sys2Proof.Machine.execCopy st s
  | .put st => Sys2Proof.Machine.execPut st s
  | .get st => Sys2Proof.Machine.execGet st s
  | .atomic st => Sys2Proof.Machine.execAtomic st s
  | .descReduce st => Sys2Proof.Machine.execDescReduce st s
  | .descCas16 st => Sys2Proof.Machine.execDescCas16 st s
  | .descSignal st => Sys2Proof.Machine.execDescSignal st s
  | .fold st => Sys2Proof.Machine.execFold st s
  | .wring st => Sys2Proof.Machine.execWring st s
  | .descTick st => Sys2Proof.Machine.execDescTick st s
  | .tickHoldEnd st => Sys2Proof.Machine.execTickHoldEnd st s
  | .commandCompletion id => Sys2Proof.Machine.execCommandCompletion id s
  | .commandTimeout id => Sys2Proof.Machine.execCommandTimeout id s
  | .fsyncRetry peer cls => Sys2Proof.Machine.execFsyncRetry peer cls s
  | .load p f => Sys2Proof.Machine.execLoad p f s
  | .store p f => Sys2Proof.Machine.execStore p f s
  | .storePart p f => Sys2Proof.Machine.execStorePart p f s
  | .reduce p f => Sys2Proof.Machine.execReduce p f s
  | .signal p f => Sys2Proof.Machine.execSignal p f s
  | .ctrRead p f => Sys2Proof.Machine.execCtrRead p f s
  | .fsync p => Sys2Proof.Machine.execFsync p s
  | .storeMc p f => Sys2Proof.Machine.execStoreMc p f s
  | .storePartMc p f => Sys2Proof.Machine.execStorePartMc p f s
  | .reduceMc p f => Sys2Proof.Machine.execReduceMc p f s
  | .regReadPacket p => Sys2Proof.Machine.execRegReadPacket p s
  | .regWritePacket p => Sys2Proof.Machine.execRegWritePacket p s
  | .fAdd p f => Sys2Proof.Machine.execFAdd p f s
  | .swap p f => Sys2Proof.Machine.execSwap p f s
  | .cas8 p f => Sys2Proof.Machine.execCas8 p f s
  | .fAnd p f => Sys2Proof.Machine.execFAnd p f s
  | .fOr p f => Sys2Proof.Machine.execFOr p f s
  | .fXor p f => Sys2Proof.Machine.execFXor p f s
  | .fMaxS p f => Sys2Proof.Machine.execFMaxS p f s
  | .fMinS p f => Sys2Proof.Machine.execFMinS p f s
  | .fMaxU p f => Sys2Proof.Machine.execFMaxU p f s
  | .fMinU p f => Sys2Proof.Machine.execFMinU p f s
  | .cas16 p f => Sys2Proof.Machine.execCas16 p f s
  | .respData p => Sys2Proof.Machine.execRespData p s
  | .respStatus p => Sys2Proof.Machine.execRespStatus p s
  | .receipt p => Sys2Proof.Machine.execReceipt p s
  | .receiptMc p => Sys2Proof.Machine.execReceiptMc p s
  | .syncAck p => Sys2Proof.Machine.execSyncAck p s
  | .tornNote p => Sys2Proof.Machine.execTornNote p s
  | .fwChunk p => Sys2Proof.Machine.execFwChunk p s
  | .fwActivate p => Sys2Proof.Machine.execFwActivate p s
  | .captureFwd p => Sys2Proof.Machine.execCaptureFwd p s
  | .traceFwd p => Sys2Proof.Machine.execTraceFwd p s
  | .forwardPacket input lane now => Sys2Proof.Machine.execForwardPacket input lane now s
  | .packetCommit port lane => Sys2Proof.Machine.execPacketCommit port lane s
  | .tickEdge now temp power offset => Sys2Proof.Machine.execTickEdge now temp power offset s
  | .epochSwitch => Sys2Proof.Machine.execEpochSwitch s
  | .epochRetire => Sys2Proof.Machine.execEpochRetire s
  | .routeStallFlag port lane => Sys2Proof.Machine.execRouteStallFlag port lane s
  | .flitSend p picks => Sys2Proof.Machine.execFlitSend p picks s
  | .normalFlit p air now => Sys2Proof.Machine.execNormalFlit p air now s
  | .idleFlit p air now => Sys2Proof.Machine.execIdleFlit p air now s
  | .nakFlit p air now => Sys2Proof.Machine.execNakFlit p air now s
  | .initMessage p air now => Sys2Proof.Machine.execInitMessage p air now s
  | .creditAdv p m => Sys2Proof.Machine.execCreditAdv p m s
  | .replayTimeout p => Sys2Proof.Machine.execReplayTimeout p s
  | .initTimeout p => Sys2Proof.Machine.execInitTimeout p s
  | .autoRetrain p => Sys2Proof.Machine.execAutoRetrain p s
  | .pilotSymbolLock p inverted => Sys2Proof.Machine.execPilotSymbolLock p inverted s
  | .pilotLockLoss p => Sys2Proof.Machine.execPilotLockLoss p s
  | .pilotLossTimeout p => Sys2Proof.Machine.execPilotLossTimeout p s
  | .pilotMessageSend p mtype idles now => Sys2Proof.Machine.execPilotMessageSend p mtype idles now s
  | .pilotIdle p m => Sys2Proof.Machine.execPilotIdle p m s
  | .pilotTick p m now => Sys2Proof.Machine.execPilotTick p m now s
  | .pilotTime p m now => Sys2Proof.Machine.execPilotTime p m now s
  | .parentLoss missed => Sys2Proof.Machine.execParentLoss missed s
  | .linkState p m => Sys2Proof.Machine.execLinkState p m s
  | .train p m => Sys2Proof.Machine.execTrain p m s
  | .caps p m => Sys2Proof.Machine.execCaps p m s
  | .seam p m => Sys2Proof.Machine.execSeam p m s
  | .seamResult p m => Sys2Proof.Machine.execSeamResult p m s
  | .noSeamTimeout p => Sys2Proof.Machine.execNoSeamTimeout p s
  | .delayReqSend p now => Sys2Proof.Machine.execDelayReqSend p now s
  | .delayReq p m t2 t3 => Sys2Proof.Machine.execDelayReq p m t2 t3 s
  | .delayResp p m t4 => Sys2Proof.Machine.execDelayResp p m t4 s
  | .pilotStepEnd p => Sys2Proof.Machine.execPilotStepEnd p s
  | .rateStepEnd p => Sys2Proof.Machine.execRateStepEnd p s
  | .detectStepEnd p => Sys2Proof.Machine.execDetectStepEnd p s
  | .orderStepEnd p ids now => Sys2Proof.Machine.execOrderStepEnd p ids now s
  | .fomWindowEnd p wins ehs => Sys2Proof.Machine.execFomWindowEnd p wins ehs s
  | .adaptStepEnd p settings => Sys2Proof.Machine.execAdaptStepEnd p settings s
  | .alignStepEnd p => Sys2Proof.Machine.execAlignStepEnd p s
  | .fecLockStepEnd p => Sys2Proof.Machine.execFecLockStepEnd p s
  | .trainingStepTimeout p => Sys2Proof.Machine.execTrainingStepTimeout p s
  | .rdata ch status tag hdr words cycles => Sys2Proof.Machine.execRdata ch status tag hdr words cycles s
  | .wack ch status tag hdr => Sys2Proof.Machine.execWack ch status tag hdr s
  | .adata ch status tag hdr words => Sys2Proof.Machine.execAdata ch status tag hdr words s
  | .hostTransactionTimeout ch tag => Sys2Proof.Machine.execHostTransactionTimeout ch tag s
  | .mangleUnitDone e bad => Sys2Proof.Machine.execMangleUnitDone e bad s
  | .foldStart st => Sys2Proof.Machine.execFoldStart st s
  | .foldPut st d => Sys2Proof.Machine.execFoldPut st d s
  | .foldGet st d => Sys2Proof.Machine.execFoldGet st d s
  | .putr st d => Sys2Proof.Machine.execPutr st d s
  | .pass st d => Sys2Proof.Machine.execPass st d s
  | .passConsume st inp loc out => Sys2Proof.Machine.execPassConsume st inp loc out s
  | .gatherIdx st d => Sys2Proof.Machine.execGatherIdx st d s
  | .foldSignal st d => Sys2Proof.Machine.execFoldSignal st d s
  | .wait st d => Sys2Proof.Machine.execWait st d s
  | .waitSatisfied st d => Sys2Proof.Machine.execWaitSatisfied st d s
  | .foldTick st d => Sys2Proof.Machine.execFoldTick st d s
  | .foldTickRelease st => Sys2Proof.Machine.execFoldTickRelease st s
  | .foldFence st d => Sys2Proof.Machine.execFoldFence st d s
  | .loop st d => Sys2Proof.Machine.execLoop st d s
  | .foldDone st d => Sys2Proof.Machine.execFoldDone st d s
  | .instructionCompletion id now => Sys2Proof.Machine.execInstructionCompletion id now s
  | .foldTimeout st => Sys2Proof.Machine.execFoldTimeout st s
  | .markerCodeword p air mark now => Sys2Proof.Machine.execMarkerCodeword p air mark now s
  | .reservedOpcodePacket p => Sys2Proof.Machine.execReservedOpcodePacket p s
  | .pilotMessageDiscard p m => Sys2Proof.Machine.execPilotMessageDiscard p m s
  | .tagHoldEnd tag => Sys2Proof.Machine.execTagHoldEnd tag s
  | .tickMasterWaitEnd => Sys2Proof.Machine.execTickMasterWaitEnd s
  | .portPowerUpDone p => Sys2Proof.Machine.execPortPowerUpDone p s
  | .bitslipDone p => Sys2Proof.Machine.execBitslipDone p s

end Sys2Proof.Machine
end

