-- ==== Sys2Proof/WellFormed.lean ====
section
/-!
DEFINITION. Well-formed commands: operands within the ranges that the spec gives them, packets, flits and beats whole.
-/

namespace Sys2Proof

/-- A number within a field. -/
def below (n x : Nat) : Bool := decide (x < n)

/-- A port, 0 to 5. -/
def isPort (p : Nat) : Bool := decide (p < 6)

/-- A stream, 0 to 255 (R84). -/
def isStream (s : Nat) : Bool := decide (s < 256)

/-- A Mangle engine or a host channel, 0 to 11. -/
def isUnit (e : Nat) : Bool := decide (e < 12)

/-- A class that has flows (R110). -/
def isFlowClass (c : Nat) : Bool := c == 3 || c == 4 || c == 5

/-- A packet with the data slots that its header announces (Table 3.6). -/
def wholePacket (p : Packet) : Bool := p.data.length == Machine.hSlots p.hdr

/-- Levels of sixteen lanes (R378). -/
def isAir (air : Air) : Bool := air.length == 16 && air.all fun ls => ls.all fun x => decide (x < 4)

/-- A control block and at most 8 data blocks (R385). -/
def isMessage (m : List PilotBlock) : Bool := decide (1 ≤ m.length) && decide (m.length ≤ 9)

/-- A beat with its four DARN words (R264). -/
def wholeBeat (ws : List HostWord) : Bool := ws.length == 4

/-- 1 to 256 bytes of an image (Table 14.2). -/
def isChunk (d : List Byte) : Bool := decide (1 ≤ d.length) && decide (d.length ≤ 256)

/-- IMAGE_END's command byte alone, or a command byte outside Table 14.2 with any bytes behind it. -/
def wholeRequest (q : MildomReq) : Bool :=
  below 256 q.code && below 256 q.crc && ((q.code == 5 && q.data.isEmpty) || !([1, 2, 3, 4, 5, 6].contains q.code))

/-- One value for each data lane. -/
def perLane {α : Type} (xs : List α) : Bool := xs.length == 16

/-- Traffic classes of a port's arbiter. -/
def isClasses (xs : List Nat) : Bool := xs.all fun x => decide (x < 8)

/-- A window of the program store, 0 to 7 (R254), or a word of the register window (R531). -/
def knownEntry : IndexedReg → Bool
  | .pstore x => decide (x < 8)
  | .plain w => decide (w < 65536)
  | _ => true

/-- Whether a command's operands are within their ranges. -/
def Instr.wf (i : Instr) : Bool :=
  match i with
  | .coldRstAssert => true
  | .coldRstRelease _ x y prov => below 32 x && below 32 y && below 4096 prov
  | .fuseLoad _ => true
  | .sramSelfTest eng port _ => below 4096 eng && below 64 port
  | .managementBoot => true
  | .startupTrainingEnd => true
  | .knownAnswerRun eng _ => below 4096 eng
  | .thermtrip => true
  | .entdaa addr => below 128 addr
  | .mildomRegRead reg crc => below 65536 reg.what && below 256 crc
  | .mildomRegWrite reg _ crc => below 65536 reg && below 256 crc
  | .imageOffer len crc => below (2 ^ 32) len && below 256 crc
  | .imageData off data crc => below (2 ^ 32) off && isChunk data && below 256 crc
  | .imageEnd q => wholeRequest q
  | .imageCheckDone _ _ => true
  | .mildomReset level crc => below 256 level && below 256 crc
  | .bypass => true
  | .idcode => true
  | .samplePreload _ _ => true
  | .extest => true
  | .extestPulse => true
  | .extestTrain => true
  | .regAccess _ reg _ => below 65536 reg
  | .fuseWrite code => below 16 code
  | .mbist eng port _ => below 4096 eng && below 64 port
  | .registerWrite _ reg _ wchk => below 65536 reg && below 256 wchk
  | .indexedEntryRead t => knownEntry t.what.what && below 256 t.what.wchk
  | .streamEnable rp k _ => below 4 k && below 256 rp.wchk
  | .doorbell st v => isStream st && below 256 v.wchk
  | .kernelBoundaryCommand v => below 256 v.what.wchk
  | .segmapEntryWrite rp _ => below 256 rp.wchk
  | .segmapFenceRequest rp _ => below 256 rp.wchk
  | .segmapFenceDone => true
  | .keyRootWrite rp _ => below 256 rp.wchk
  | .deriveInWrite rp _ => below 256 rp.wchk
  | .ctrValueWrite rp _ => below 256 rp.wchk
  | .ctrAddWrite rp _ => below 256 rp.wchk
  | .ctrGroupEntryWrite rp _ => below 256 rp.wchk
  | .ctrFenceRequest rp _ => below 256 rp.wchk
  | .ctrFenceDone => true
  | .mirrorWrite ctr => below 65536 ctr.what
  | .profileWrite rp p _ => below 16 p && below 256 rp.wchk
  | .seedWrite rp _ => below 256 rp.wchk
  | .ucodeLoadRequest rp e _ => isUnit e && below 256 rp.wchk
  | .ucodeLoadDone e _ _ _ => isUnit e
  | .engineQuiesce rp e _ => isUnit e && below 256 rp.wchk
  | .hostChannelQuiesce rp n _ => isUnit n && below 256 rp.wchk
  | .hostChannelDisable rp n _ => isUnit n && below 256 rp.wchk
  | .linkQuiesce rp p _ => isPort p && below 256 rp.wchk
  | .hostChannelMapWrite rp k _ => below 6 k && below 256 rp.wchk
  | .pstoreHighWrite rp x _ => below 8 x && below 256 rp.wchk
  | .pstoreLowRead x => below 8 x.what && below 256 x.wchk
  | .pstoreLockWrite rp _ => below 256 rp.wchk
  | .lockClearTakesEffect g => below 16 g
  | .routeEntryWrite rp _ => below 256 rp.wchk
  | .switchTickWrite rp _ => below 256 rp.wchk
  | .routeGroupEntryWrite rp _ => below 256 rp.wchk
  | .hamperLimitsWrite rp _ => below 256 rp.wchk
  | .hamperFlushWrite rp _ => below 256 rp.wchk
  | .hamperFlushDone => true
  | .downReq rp p _ => isPort p && below 256 rp.wchk
  | .retrain rp p _ => isPort p && below 256 rp.wchk
  | .release rp p _ => isPort p && below 256 rp.wchk
  | .creditLimitWrite rp p _ => isPort p && below 256 rp.wchk
  | .classShareWrite rp p _ => isPort p && below 256 rp.wchk
  | .bitslipWrite rp p _ => isPort p && below 256 rp.wchk
  | .testModeWrite rp p _ => isPort p && below 256 rp.wchk
  | .rinseRequest rp _ => below 256 rp.wchk
  | .rinseStart => true
  | .rinseComplete => true
  | .contextHoldWrite rp _ => below 256 rp.wchk
  | .soloWrite rp _ => below 256 rp.wchk
  | .resetRequestEngine rp e => below 16 e && below 256 rp.wchk
  | .sequencerReset rp => below 256 rp.wchk
  | .engineResetDone e _ => below 13 e
  | .resetRequestCompute rp => below 256 rp.wchk
  | .controlPoison => true
  | .computeResetDrained => true
  | .resetRelease rp => below 256 rp.wchk
  | .resetRequestBlock rp => below 256 rp.wchk
  | .rinseDeadline => true
  | .engineDeadline => true
  | .computeDeadline => true
  | .blockDeadline => true
  | .engineHung e => below 13 e.what
  | .watchdogKick _ v => below 256 v.wchk
  | .watchdogBite _ => true
  | .managementRestartDone => true
  | .fwLoadRequest rp _ => below 256 rp.wchk
  | .fwLoadDone _ _ => true
  | .fwActivateWrite rp _ => below 256 rp.wchk
  | .fwActivation _ _ => true
  | .fwBcastStart rp _ => below 256 rp.wchk
  | .fwChunkSend => true
  | .topoSealWrite rp _ => below 256 rp.wchk
  | .featuresAgreedWrite rp _ => below 256 rp.wchk
  | .variantFusedWrite rp _ => below 256 rp.wchk
  | .portPowerOff rp _ => below 256 rp.wchk
  | .portPowerOn rp _ => below 256 rp.wchk
  | .clockRequestWrite rp _ => below 256 rp.wchk
  | .timePeriodWrite rp _ => below 256 rp.wchk
  | .becomeMasterWrite rp _ => below 256 rp.wchk
  | .ctrsClearWrite rp _ => below 256 rp.wchk
  | .counterClear => true
  | .traceMark v => below 256 v.wchk
  | .snapshotRequest rp _ => below 256 rp.wchk
  | .snapshot => true
  | .creaseTickWrite rp _ => below 256 rp.wchk
  | .creaseCut => true
  | .creaseResumeWrite rp _ => below 256 rp.wchk
  | .creaseResume => true
  | .nop st => isStream st
  | .copy st => isStream st
  | .put st => isStream st
  | .get st => isStream st
  | .atomic st => isStream st
  | .descReduce st => isStream st
  | .descCas16 st => isStream st
  | .descSignal st => isStream st
  | .fold st => isStream st
  | .wring st => isStream st
  | .descTick st => isStream st
  | .tickHoldEnd st => isStream st
  | .commandCompletion _ => true
  | .commandTimeout _ => true
  | .fsyncRetry peer cls => below 32768 peer && isFlowClass cls
  | .load p _ => wholePacket p
  | .store p _ => wholePacket p
  | .storePart p _ => wholePacket p
  | .reduce p _ => wholePacket p
  | .signal p _ => wholePacket p
  | .ctrRead p _ => wholePacket p
  | .fsync p => wholePacket p
  | .storeMc p _ => wholePacket p
  | .storePartMc p _ => wholePacket p
  | .reduceMc p _ => wholePacket p
  | .regReadPacket p => wholePacket p.what
  | .regWritePacket p => wholePacket p.what
  | .fAdd p _ => wholePacket p
  | .swap p _ => wholePacket p
  | .cas8 p _ => wholePacket p
  | .fAnd p _ => wholePacket p
  | .fOr p _ => wholePacket p
  | .fXor p _ => wholePacket p
  | .fMaxS p _ => wholePacket p
  | .fMinS p _ => wholePacket p
  | .fMaxU p _ => wholePacket p
  | .fMinU p _ => wholePacket p
  | .cas16 p _ => wholePacket p
  | .respData p => wholePacket p
  | .respStatus p => wholePacket p
  | .receipt p => wholePacket p
  | .receiptMc p => wholePacket p
  | .syncAck p => wholePacket p
  | .tornNote p => wholePacket p
  | .fwChunk p => wholePacket p
  | .fwActivate p => wholePacket p
  | .captureFwd p => wholePacket p
  | .traceFwd p => wholePacket p
  | .forwardPacket input lane _ => below 7 input && below 16 lane
  | .packetCommit port lane => isPort port && below 16 lane
  | .tickEdge _ _ _ offsets => offsets.length == 6 && offsets.all (below 4096)
  | .epochSwitch => true
  | .epochRetire => true
  | .routeStallFlag port lane => isPort port && below 16 lane
  | .flitSend p picks => isPort p && isClasses picks
  | .normalFlit p air _ => isPort p && isAir air
  | .idleFlit p air _ => isPort p && isAir air
  | .nakFlit p air _ => isPort p && isAir air
  | .initMessage p air _ => isPort p && isAir air
  | .creditAdv p _ => isPort p
  | .replayTimeout p => isPort p
  | .initTimeout p => isPort p
  | .autoRetrain p => isPort p
  | .pilotSymbolLock p _ => isPort p
  | .pilotLockLoss r => isPort r.p
  | .pilotLossTimeout p => isPort p
  | .pilotMessageSend p mtype idles _ => isPort p && below 256 mtype && below 65536 idles
  | .pilotIdle p m => isPort p && isMessage m
  | .pilotTick p m _ => isPort p && isMessage m
  | .pilotTime p m _ => isPort p && isMessage m
  | .parentLoss _ => true
  | .linkState p m => isPort p && isMessage m
  | .train p m => isPort p && isMessage m
  | .caps p m => isPort p && isMessage m
  | .seam p m => isPort p && isMessage m
  | .seamResult p m => isPort p && isMessage m
  | .noSeamTimeout p => isPort p
  | .delayReqSend p _ => isPort p
  | .delayReq p m _ _ => isPort p && isMessage m
  | .delayResp p m _ => isPort p && isMessage m
  | .pilotStepEnd p => isPort p
  | .rateStepEnd p => isPort p
  | .detectStepEnd p => isPort p
  | .orderStepEnd p ids _ => isPort p && isAir ids
  | .fomWindowEnd p wins ehs => isPort p && perLane wins && perLane ehs
  | .adaptStepEnd p settings => isPort p && perLane settings
  | .alignStepEnd p => isPort p
  | .fecLockStepEnd p => isPort p
  | .trainingStepTimeout p => isPort p
  | .rdata ch status tag _ words _ => isUnit ch && below 4 status && below 1024 tag.tag && below 32 tag.beat && wholeBeat words
  | .wack ch status tag _ => isUnit ch && below 4 status && below 1024 tag.tag
  | .adata ch status tag _ words => isUnit ch && below 4 status && below 1024 tag.tag && wholeBeat words
  | .hostTransactionTimeout ch tag => isUnit ch && below 1024 tag.what.tag
  | .mangleUnitDone e _ => isUnit e
  | .foldStart st => isStream st
  | .foldPut st _ => isStream st
  | .foldGet st _ => isStream st
  | .putr st _ => isStream st
  | .pass st _ => isStream st
  | .passConsume st _ _ _ => isStream st
  | .gatherIdx st _ => isStream st
  | .foldSignal st _ => isStream st
  | .wait st _ => isStream st
  | .waitSatisfied st _ => isStream st
  | .foldTick st _ => isStream st
  | .foldTickRelease st => isStream st
  | .foldFence st _ => isStream st
  | .loop st _ => isStream st
  | .foldDone st _ => isStream st
  | .instructionCompletion _ _ => true
  | .foldTimeout st => isStream st
  | .markerCodeword p air mark _ => isPort p && isAir air && isAir mark
  | .reservedOpcodePacket p => wholePacket p
  | .pilotMessageDiscard p m => isPort p && isMessage m
  | .tagHoldEnd tag => below 65536 tag
  | .tickMasterWaitEnd => true
  | .portPowerUpDone p => isPort p
  | .bitslipDone p => isPort p

end Sys2Proof
end

