-- ==== Sys2Proof/Safety.lean ====
section
/-!
DEFINITION. The terms that claims use: what a command leaves, the shape of a state, what a run must keep.
-/

namespace Sys2Proof.Machine

/-- The command completes: `exec` answers a next state with the queue as it was and a block that satisfies `P`. -/
def After (c : Instr) (s : State) (P : Block → Prop) : Prop := ∃ b : Block, exec c s = .next { s with blk := b } ∧ P b

/-- The block is out of cold reset (R511). -/
abbrev State.live (s : State) : Prop := s.blk.boot.coldHeld = false

/-- The block carries traffic: it is out of cold reset, and no EXTEST instruction is in force (R511, R518). -/
abbrev State.carries (s : State) : Prop := s.blk.boot.coldHeld = false ∧ s.blk.boot.extest = false

/-- A register-port write marked as `priv` says, with the parity that R281 asks of it. -/
def rpOk (priv : Bool) (w : Nat) (v : Word) : Rp := { priv, wchk := rpCheck (w % 65536) v }

/-- The same of a write that any writer may make. -/
def rpWord (w : Nat) (v : Word) : RpWord := { v, wchk := rpCheck (w % 65536) v }

/-- A register-port read with the parity that R281 asks of it. -/
def rpRead {α : Type} (what : α) (w : Nat) : RpRead α := { what, wchk := rpCheck (w % 65536) 0 }

/-- The register port's answer since `b`: its word with its parity, RP_ERR, and one RP_ACK more (R281). -/
def Says (b c : Block) (v : Word) (err : Bool) : Prop := c.rp = { rdata := v, rchk := rpRchk v, err, acks := b.rp.acks + 1 }

/-- Every write of the register port that has a command of its own and needs privilege: the command, its window word, RP_WDATA. -/
def portWrites (rp : Rp) (n : Nat) (v : Word) (d : Darn) : List (Instr × Nat × Word) := [
    (.streamEnable rp n v, fo (0x048 + 8 * n), v), (.segmapEntryWrite rp v, sg 0x048, v),
    (.segmapFenceRequest rp v, sg 0x050, setBit v 0 true), (.keyRootWrite rp v, sg 0x078, v),
    (.deriveInWrite rp v, sg 0x088, v), (.ctrValueWrite rp v, ct 0x048, v), (.ctrAddWrite rp ⟨v, d⟩, ct 0x050, v),
    (.ctrGroupEntryWrite rp v, ct 0x068, v), (.ctrFenceRequest rp v, ct 0x070, setBit v 0 true),
    (.profileWrite rp n v, mg 0 (0x800 + 8 * n), v), (.seedWrite rp v, mg 0 0x908, v),
    (.ucodeLoadRequest rp n v, mg n 0x078, setBit v 0 true), (.engineQuiesce rp n v, mg n 0x010, v),
    (.hostChannelQuiesce rp n v, hc n 0x010, v), (.hostChannelDisable rp n v, hc n 0x010, v),
    (.linkQuiesce rp n v, lk n 0x010, v), (.hostChannelMapWrite rp n v, hc 0 (0x800 + 8 * n), v),
    (.pstoreHighWrite rp n v, regAt (0x41 + n) 0x050, v), (.pstoreLockWrite rp v, fo 0x100, v),
    (.routeEntryWrite rp v, rt 0x060, v), (.switchTickWrite rp v, rt 0x048, v), (.routeGroupEntryWrite rp v, rt 0x070, v),
    (.hamperLimitsWrite rp v, rt 0x080, v), (.hamperFlushWrite rp v, rt 0x088, v),
    (.downReq rp n v, lk n 0x048, setBit v 63 true), (.retrain rp n v, lk n 0x048, setBit v 62 true),
    (.release rp n v, lk n 0x048, setBit v 61 true), (.creditLimitWrite rp n v, lk n 0x080, v),
    (.classShareWrite rp n v, lk n 0x0E8, v), (.bitslipWrite rp n v, ln n 0x068, v), (.testModeWrite rp n v, ln n 0x098, v),
    (.rinseRequest rp v, cx 0x050, setBit v 12 true), (.contextHoldWrite rp v, cx 0x048, v), (.soloWrite rp v, cx 0x058, v),
    (.resetRequestEngine rp n, rs 0x040, word (2 ^ 61 + n % 16)), (.sequencerReset rp, rs 0x040, word (2 ^ 61 + 12)),
    (.resetRequestCompute rp, rs 0x040, word (2 * 2 ^ 61)), (.resetRelease rp, rs 0x040, word (2 ^ 60)),
    (.resetRequestBlock rp, rs 0x040, word (3 * 2 ^ 61)), (.fwLoadRequest rp v, regAt 0x01 0x808, setBit v 0 true),
    (.fwActivateWrite rp v, regAt 0x01 0x810, v), (.fwBcastStart rp v, regAt 0x01 0x820, setBit v 63 true),
    (.topoSealWrite rp v, wSeal, v), (.featuresAgreedWrite rp v, wFeatAgreed, v), (.variantFusedWrite rp v, wCode, v),
    (.portPowerOff rp v, regAt 0x01 0x850, v), (.portPowerOn rp v, regAt 0x01 0x850, v), (.clockRequestWrite rp v, wClock, v),
    (.timePeriodWrite rp v, wPeriod, v), (.becomeMasterWrite rp v, regAt 0x03 0x060, v), (.ctrsClearWrite rp v, cn 0x040, v),
    (.snapshotRequest rp v, db 0x048, setBit v 0 true), (.creaseTickWrite rp v, db 0x050, v),
    (.creaseResumeWrite rp v, db 0x058, v)]

/-- The port's other accesses: writes that any writer may make, reads, and the write of a register that has no command of its own
(Tables 7.6, 15.1). -/
def portOthers (rp : Rp) (n : Nat) (v : Word) (d : Darn) : List (Instr × Nat × Word) :=
  let any : RpWord := { v, wchk := rp.wchk }
  let read := fun (x : IndexedReg) => Instr.indexedEntryRead { what := { what := x, wdata := v, wchk := rp.wchk }, d }
  [(.doorbell n any, fo (0x800 + 8 * n), v), (.kernelBoundaryCommand { what := any, d }, hc 0 0x840, v), (.traceMark any, tr 0x070, v),
    (.watchdogKick false any, rs 0x088, v),
    (read .segmap, sg 0x048, v), (read .ctr, ct 0x048, v), (read .route, rt 0x060, v), (read .ctxt, cx 0x048, v),
    (read (.pstore n), regAt (0x41 + n) 0x050, v), (read (.plain n), n, v),
    (.pstoreLowRead { what := n, wdata := v, wchk := rp.wchk }, regAt (0x41 + n) 0x048, v),
    (.registerWrite rp.priv n { what := v, d } rp.wchk, n, v)]

/-- Offsets, by the first page of the range, of the registers for which the spec gives a write a rule of its own. -/
def ruledOffs (k : Nat) : List Nat :=
  match k with
  | 0x00 => [0x058]
  | 0x01 => [0x080, 0x808, 0x810, 0x820, 0x840, 0x850, 0x858]
  | 0x02 => [0x040]
  | 0x03 => [0x050, 0x060]
  | 0x10 => [0x048, 0x058, 0x080, 0x0E8]
  | 0x18 => [0x068, 0x098]
  | 0x20 => [0x010, 0x0A0, 0x800, 0x808, 0x810, 0x818, 0x820, 0x828, 0x830, 0x840]
  | 0x30 => [0x010, 0x078, 0x908] ++ (List.range 16).map fun p => 0x800 + 8 * p
  | 0x40 => [0x048, 0x050, 0x058, 0x060, 0x068, 0x070, 0x078, 0x100] ++ (List.range 256).map fun n => 0x800 + 8 * n
  | 0x41 => [0x048, 0x050]
  | 0x50 => [0x048, 0x060, 0x070, 0x078, 0x080, 0x088]
  | 0x58 => [0x048, 0x050, 0x078]
  | 0x60 => [0x048, 0x050, 0x068, 0x070]
  | 0x70 => [0x048, 0x050, 0x058]
  | 0x78 => [0x040, 0x050, 0x088]
  | 0x7C => [0x040, 0x050]
  | 0x7E => [0x040, 0x070, 0x800, 0x828]
  | 0x7F => [0x048, 0x050, 0x058, 0x060]
  | _ => []

/-- A register with the fields `d` for which the spec gives a write no rule of its own: it replaces the writable fields. -/
def plainReg (w : Nat) (d : RegDef) : Prop :=
  regDef w = some d ∧ ∀ k, pageKind (w / 512) = some k → w % 512 * 8 ∉ ruledOffs k

/-- A block whose compute domain is up, or a register of another domain: an access is not shut out (R534). -/
abbrev Block.answers (b : Block) (w : Nat) : Prop := b.rst.down = false ∨ wordDomain w ≠ some .compute

/-- STATE of a port's link (Table 9.7). -/
abbrev Block.link (b : Block) (p : Nat) : Nat := (b.port p).st

/-- R311 does not discard an arriving packet: it carries the current epoch, or none of its source and class has come under it. -/
abbrev Block.epochOk (b : Block) (p : Packet) : Prop :=
  ¬(bit p.hdr 120 ≠ (b.fwd.current == 1) ∧ b.fwd.newSeen.contains (hSrc p.hdr, opClass (hOp p.hdr)) = true)

/-- The destination side takes a request up at once: R311 lets it, the compute domain is up, no earlier packet of its channel waits,
and a host channel can be used (R34, R149, R280, R311). -/
abbrev Block.takes (b : Block) (p : Packet) : Prop :=
  b.epochOk p ∧ b.rst.down = false ∧ b.behind p = false ∧ b.hostUsable = true

/-- No packet of a flow is at the destination side (R110). -/
abbrev Block.flowEmpty (b : Block) (src cls : Nat) (mc : Option Nat) : Prop := ∀ d ∈ b.dest.pkts, d.ofFlow src cls mc = false

/-- A packet with `P` has been sent since `b`: it is among those that have joined the injection queue, or, where it goes to this chip
itself, the packets that wait there (R46). -/
def Sends (b c : Block) (P : Packet → Prop) : Prop :=
  ∃ q, P q ∧ if treeOp (hOp q.hdr) = false ∧ hDst q.hdr = b.chipId
    then ∃ old more, c.dest.inbox = old ++ more ∧ old.Sublist b.dest.inbox ∧ q ∈ more
    else ∃ more, c.fwd.inject = b.fwd.inject ++ more ∧ q ∈ more

/-- A request of each opcode, as the command that brings it: the opcodes of Table 3.6, the reserved ones among them. -/
def requests (p : Packet) (f : Finds) : List (Instr × Nat) :=
  [(.load p f, 0x01), (.store p f, 0x02), (.storePart p f, 0x03), (.reduce p f, 0x04), (.signal p f, 0x05), (.ctrRead p f, 0x06),
   (.fsync p, 0x07), (.fsync p, 0x08), (.fsync p, 0x09), (.storeMc p f, 0x0A), (.storePartMc p f, 0x0B), (.reduceMc p f, 0x0C),
   (.regReadPacket { what := p, d := f.ctr }, 0x0D), (.regWritePacket { what := p, d := f.ctr }, 0x0E), (.reservedOpcodePacket p, 0x0F),
   (.fAdd p f, 0x10), (.swap p f, 0x11), (.cas8 p f, 0x12), (.fAnd p f, 0x13), (.fOr p f, 0x14), (.fXor p f, 0x15),
   (.fMaxS p f, 0x16), (.fMinS p f, 0x17), (.fMaxU p f, 0x18), (.fMinU p f, 0x19), (.cas16 p f, 0x1A),
   (.reservedOpcodePacket p, 0x1B), (.reservedOpcodePacket p, 0x1C), (.reservedOpcodePacket p, 0x1D), (.reservedOpcodePacket p, 0x1E),
   (.reservedOpcodePacket p, 0x1F)]

/-- It is a stream's turn to issue (R218), and the instruction its program has reached has opcode `op`. -/
abbrev Block.fetches (b : Block) (st op : Nat) : Prop :=
  b.nextFold = some st ∧ fOp (b.instr (b.prog st).pc) = op ∧ b.up = true ∧ b.rst.draining = false ∧ b.rst.engines.contains 12 = false

/-- The counter of a stream's program may go to `pc`: inside its region, to a whole instruction with a defined opcode (R222,
R223, R225). -/
abbrev Block.mayRun (b : Block) (st pc : Nat) : Prop :=
  pc / 1024 = (b.prog st).entry / 1024 ∧ b.fold.bad.contains pc = false ∧ fOp (b.instr pc) ≠ 0 ∧ fOp (b.instr pc) < 0xC

/-- No slot of an earlier session of a port is still to leave its receive buffer (R414). -/
abbrev Block.oldGone (b : Block) (p : Nat) : Prop :=
  ∀ x ∈ b.fwd.pkts, x.input = p → x.session ≠ (b.port p).session → x.killed = false → 1 + x.data.length ≤ x.left

/-- All that R414 asks of a port in SEAM is there: both results AGREED on one version, 256 delay samples, no slot of an earlier session. -/
abbrev Block.seamReady (b : Block) (p : Nat) : Prop :=
  (b.lane p).result = some 0 ∧ (b.lane p).peerResult = some (0, b.rf (ln p 0x088) 59 52) ∧ 256 ≤ (b.lane p).flights.length ∧ b.oldGone p

/-- Something that R414 asks of a port in SEAM is still to come, and nothing has failed. -/
abbrev Block.seamOpen (b : Block) (p : Nat) : Prop :=
  (b.lane p).result.getD 0 = 0 ∧ (∀ r, (b.lane p).peerResult = some r → r.1 = 0)
  ∧ ((b.lane p).result = none ∨ (b.lane p).peerResult = none
    ∨ (∀ r, (b.lane p).peerResult = some r → r.2 = b.rf (ln p 0x088) 59 52) ∧ ((b.lane p).flights.length < 256 ∨ ¬b.oldGone p))

/-- Coordinates of the range of a tree packet that its branch along an axis still has to reach from this chip, in the positive or the
negative direction, by their distance from the source (R314, rule 1). -/
def Block.treeAhead (b : Block) (h : Slot) (axis : Nat) (pos : Bool) : List Nat :=
  let n := b.axisLen axis
  let own := coord b.chipId axis
  let src := coord (hSrc h) axis
  let d := if pos then (own + n - src) % n else (src + n - own) % n
  let far := if pos then n / 2 else (n + 1) / 2 - 1
  if far < d then [] else (List.range (far + 1)).filter fun k => decide (d < k) && b.mcIn h axis (if pos then (src + k) % n else (src + n - k) % n)

/-- The chip lies on the lines that R314's branches of an axis start from: it has the source's coordinates on the later axes, and its own
on the earlier ones lie in the range. -/
abbrev Block.onLines (b : Block) (h : Slot) (axis : Nat) : Prop :=
  (∀ x < 3, axis < x → coord b.chipId x = coord (hSrc h) x) ∧ ∀ x < axis, b.mcIn h x (coord b.chipId x) = true

/-- A tree packet leaves this chip through a port (R314, rules 1 to 3). -/
abbrev Block.treeOut (b : Block) (h : Slot) (port : Nat) : Prop :=
  port < 6 ∧ b.onLines h (port / 2) ∧ b.treeAhead h (port / 2) (port % 2 == 0) ≠ []

/-- The tree that R314 builds brings a packet to this chip on the port `input`, or the chip is its source. -/
abbrev Block.treeIn (b : Block) (h : Slot) (input : Nat) : Prop :=
  (∀ x < 3, coord b.chipId x < b.axisLen x ∧ coord (hSrc h) x < b.axisLen x)
  ∧ if input < 6 then
      let n := b.axisLen (input / 2)
      let d := (coord b.chipId (input / 2) + n - coord (hSrc h) (input / 2)) % n
      b.onLines h (input / 2) ∧ d ≠ 0 ∧ (input % 2 = 1 ↔ d ≤ n / 2)
    else hSrc h = b.chipId

/-- This chip is a member of a tree packet's range (R314, rule 4). -/
abbrev Block.member (b : Block) (h : Slot) : Prop := ∀ x < 3, b.mcIn h x (coord b.chipId x) = true

/-- The branches of a tree packet: one through each port of the tree, with the members below it (R121, R314). -/
def Block.treeCopies (b : Block) (h : Slot) (q : FPkt) : Prop :=
  (∀ k, (∃ x ∈ q.branches, x.out = k) ↔ b.treeOut h k)
  ∧ ∀ x ∈ q.branches, x.st = .waiting ∧ x.epoch = b2n (bit h 120)
    ∧ x.members = (b.treeAhead h (x.out / 2) (x.out % 2 == 0)).length
        * (((List.range 3).filter fun a => decide (x.out / 2 < a)).map fun a => ((List.range (b.axisLen a)).filter (b.mcIn h a)).length).prod

/-- Bytes that a source chip and context would hold in the Hampers with one more packet (R320). -/
def Block.pairBytes (b : Block) (p : FPkt) (src ctx : Nat) : Nat :=
  ((b.hampered.filter fun x => decide (x.2.st = .hamper) && hSrc x.1.hdr == src && hCtx x.1.hdr == ctx).map fun x => x.1.bytes).sum
  + if hSrc p.hdr = src ∧ hCtx p.hdr = ctx then p.bytes else 0

/-- A stream has no FOLD command but the one its program serves (R217). -/
abbrev Block.oneFold (b : Block) (st : Nat) : Prop :=
  ∀ c ∈ b.req.cmds, c.stream = st → c.ofFold = false → dOp c.desc = 0x13 → c.id = (b.prog st).cmd

/-- A stream's program has stopped with a cause of Table 6.6 at `pc` (R248, R249). -/
abbrev Block.stoppedAt (b : Block) (st cause pc : Nat) : Prop := (b.prog st).cause = cause ∧ (b.prog st).stopPc = pc

/-- A stream's program issues next from `pc`. -/
abbrev Block.runsAt (b : Block) (st pc : Nat) : Prop :=
  (b.prog st).st = .issuing ∧ (b.prog st).pc = pc % 16384 ∧ (b.prog st).head = none

end Sys2Proof.Machine
end

