-- ==== Sys2Proof/Certificates/Slice0/Obligations.lean ====
section
/-!
DEFINITION. The statements for the provers. `After c s P` says that the command completes, and what it leaves; each docstring names
the rules of spec/ that the statement follows, and the log entry where it rests on a choice of the model.
-/

open Sys2Proof Sys2Proof.Machine

/-! ### The machine as a whole -/

/-- A step takes the command at the front of the queue: it is `exec` of that command on the queue's rest; with nothing waiting the
block idles (log entry 1). -/
def Obligations.StepRunsFrontCommand : Prop :=
  (∀ (c : Instr) (rest : List Instr) (b : Block), step { pending := c :: rest, blk := b } = exec c { pending := rest, blk := b })
  ∧ ∀ b : Block, step { pending := [], blk := b } = .next { pending := [], blk := b }

/-- Every command completes in every state: `exec` answers a next state that has the queue it was given; in cold reset only the
cold-reset commands change the block (R511). That nothing else acts in cold reset is the model's reading (log entry 10). -/
def Obligations.EveryCommandCompletes : Prop :=
  (∀ (c : Instr) (s : State), ∃ b, exec c s = .next { s with blk := b })
  ∧ ∀ (c : Instr) (s : State), ¬s.live → c ≠ .coldRstAssert → (∀ csel x y prov, c ≠ .coldRstRelease csel x y prov) →
      exec c s = .next s

/-- The machine right after reset (R416, R58, R85, R359): start-up in step 1, the compute domain down, no key root, nothing in any
map, queue or flow, every port in DOWN, no stream enabled. The fuses and every value that the tables do not state are the model's
choice (log entries 6, 57). -/
def Obligations.ResetState : Prop :=
  let b := State.reset.blk
  State.reset.pending = [] ∧ State.reset.live ∧ b.rf wStartup 63 60 = 1 ∧ b.rst.down = true ∧ b.keyRoot = none
    ∧ b.segmap = [] ∧ b.ctrs = [] ∧ b.groups = [] ∧ b.req.cmds = [] ∧ b.req.flows = [] ∧ b.fwd.pkts = [] ∧ b.host.out = []
    ∧ b.ports.length = 6 ∧ (∀ q ∈ b.ports, q.st = 0) ∧ (∀ s < 256, b.enabled s = false) ∧ b.locked = false
    ∧ b.boot.fuseVariant = none

/-- While the compute domain is down a request that reaches this chip is absorbed: nothing lands, nothing is answered, and it is
counted (R34). The premise `epochOk` leaves out a request that R311 discards as overtaken, down or up. -/
def Obligations.RequestsAbsorbed : Prop :=
  ∀ (s : State) (p : Packet) (f : Finds), s.carries → s.blk.rst.down = true → s.blk.epochOk p →
    ∀ x ∈ requests p f, hOp p.hdr = x.2 → After x.1 s fun b =>
      b.dest.pkts = s.blk.dest.pkts ∧ b.fwd.inject = s.blk.fwd.inject ∧ b.dest.inbox = s.blk.dest.inbox.erase p
        ∧ b.host = s.blk.host ∧ b.ctrs = s.blk.ctrs ∧ b.fold = s.blk.fold ∧ b.peek (rs 0x070) = satAdd (s.blk.peek (rs 0x070)) 1
        ∧ ∀ w, w ≠ rs 0x070 → b.peek w = s.blk.peek w

/-- SEGMAP.KEY_ROOT (R59): the first write is kept by every step until a cold reset, whatever command it runs; a later write changes
nothing; a read answers zero. -/
def Obligations.KeyRootKept : Prop :=
  ∀ s : State, s.live →
    (∀ v : Word, s.blk.keyRoot = none → s.blk.rst.down = false →
        After (.keyRootWrite (rpOk true (sg 0x078) v) v) s fun b => b.keyRoot = some v)
    ∧ (∀ (r : Word) (t : State), s.blk.keyRoot = some r → (∀ c rest, s.pending = c :: rest → c ≠ .coldRstAssert) →
        step s = .next t → t.blk.keyRoot = some r)
    ∧ s.blk.regRead (sg 0x078) = 0

/-- The variant code in the fuses is written once for the life of the part (R444): from every state, every step, a cold reset and a
second write included, keeps a code that has been written. -/
def Obligations.FuseVariantKept : Prop :=
  ∀ (s t : State) (v : Nat), s.blk.boot.fuseVariant = some v → step s = .next t → t.blk.boot.fuseVariant = some v

/-! ### Cold reset, start-up, management -/

/-- COLD_RST_N falling puts every part of the block at its reset value but the fuses, and holds it (R511, R444); rising, it starts
step 1 with the straps as they stand, the provisional ID drawn and the registers that come from fuses read from them (R416, R510); a
rise without a fall does nothing. The fuses, and the count of free values that the model draws, are log entries 6 and 7's; that the
lanes are without power meanwhile, and have it from the rise on, is log entry 10's. -/
def Obligations.ColdResetCommands : Prop :=
  ∀ s : State,
    (After .coldRstAssert s fun b => b = { ({} : Block) with
      free := s.blk.free
      lanes := List.replicate 6 { powered := false }
      boot := { ({} : BootSt) with
        coldHeld := true
        fuseVariant := s.blk.boot.fuseVariant
        fuseEngines := s.blk.boot.fuseEngines
        fuseBanks := s.blk.boot.fuseBanks
        fuseRevision := s.blk.boot.fuseRevision
        fuseSerial := s.blk.boot.fuseSerial } })
    ∧ ∀ (csel : Bool) (x y prov : Nat),
        (¬s.live → After (.coldRstRelease csel x y prov) s fun b => b.boot.coldHeld = false ∧ b.boot.provId = prov % 4096
          ∧ b.boot.fuseVariant = s.blk.boot.fuseVariant ∧ b.rf wStartup 63 60 = 1 ∧ b.rf wStartup 43 43 = b2n csel
          ∧ b.rf (regAt 0x02 0x050) 63 63 = b2n csel ∧ b.rf (regAt 0x02 0x050) 9 5 = y % 32 ∧ b.rf (regAt 0x02 0x050) 4 0 = x % 32
          ∧ b.rf (regAt 0x00 0x040) 35 28 = s.blk.boot.fuseRevision % 256 ∧ b.peek (regAt 0x00 0x048) = s.blk.boot.fuseSerial
          ∧ b.peek (sg 0x070) = word s.blk.boot.fuseBanks ∧ b.rf wCode 63 60 = s.blk.boot.fuseVariant.getD 2 % 16
          ∧ b.rst.down = true ∧ b.keyRoot = none ∧ b.segmap = [] ∧ b.ctrs = [] ∧ b.groups = [] ∧ b.host.out = [] ∧ b.req.cmds = []
          ∧ b.fwd.pkts = [] ∧ b.ports.length = 6 ∧ (∀ q ∈ b.ports, q.st = 0) ∧ ∀ l ∈ b.lanes, l.powered = true)
        ∧ (s.live → After (.coldRstRelease csel x y prov) s fun b => b = s.blk)

/-- Start-up (R416, R418, R420 to R424, R439, R440, R527). Step 1: two reads of the fuses that agree lead to step 2, others stop
it. Step 2: an SRAM other than an engine's or a port's that stays unrepaired stops it, as do fewer than ten good engines; else step 3
follows, or step 6 in a block reset, without any training in one that has passed its deadline (R467). Step 3: with no image offered a
chip that is not sealed waits for its seal at step 4, or at step 5 with CSEL 1, a sealed one goes on to step 6. Steps 6 and 7: once
every port has settled a locked chip goes on to step 8, another to step 7. Step 8: with ten good engines the compute domain comes up
and step 10 begins. STAGE shows each step, but 8 where a compute-domain reset has set it before (R421). THERMTRIP sets TRIPPED and
drives THERMTRIP_N low. That a failed engine may turn good again, and a port held for its replay buffer is not waited for, is the
model's choice (log entries 33, 42); that the level of a block reset returns to 0 when its training begins is log entry 40's, and the
steps beneath a STAGE of 8 are log entry 39's. -/
def Obligations.StartupRuns : Prop :=
  (∀ s : State, s.live →
    let stopped := fun (cause : Nat) (b : Block) => b.rf wStartup 63 60 = 0xF ∧ b.rf wStartup 59 56 = cause
    let at_ := fun (k : Nat) (b : Block) => b.bootStage = k ∧ (s.blk.boot.early = none → b.rf wStartup 63 60 = k)
    (s.blk.bootStage = 1 → After (.fuseLoad true) s (at_ 2) ∧ After (.fuseLoad false) s (stopped 1))
    ∧ (s.blk.bootStage = 2 → ∀ (eng port : Nat) (other : Bool),
        let good := popCount 12 (({ s.blk with boot := { s.blk.boot with failed := eng % 4096 } }).enginesGood)
        After (.sramSelfTest eng port other) s fun b => b.boot.failed = eng % 4096 ∧ b.boot.portFailed = port % 64
          ∧ (other = true → stopped 2 b) ∧ (other = false → good < 10 → stopped 3 b)
          ∧ (other = false → 10 ≤ good → (s.blk.rst.level ≠ 4 → s.blk.rst.level ≠ 5 → at_ 3 b)
              ∧ (s.blk.rst.level = 4 → at_ 6 b ∧ b.rst.level = 0)
              ∧ (s.blk.rst.level = 5 → at_ 6 b ∧ b.ports = s.blk.ports)))
    ∧ (s.blk.bootStage = 3 → s.blk.boot.checking = false → s.blk.boot.offer = none → s.blk.boot.offerOk = false →
        After .managementBoot s fun b => b.boot.running = s.blk.boot.running ∧ b.boot.coreUp = true
          ∧ (s.blk.rf wSealLeft 63 63 = 0 → at_ (if s.blk.rf (regAt 0x02 0x050) 63 63 = 1 then 5 else 4) b)
          ∧ (s.blk.rf wSealLeft 63 63 = 1 → at_ 6 b))
    ∧ (After .thermtrip s fun b => b.rf wThermal 30 30 = 1 ∧ b.boot = { s.blk.boot with thermLow := true }
        ∧ ∀ w, w ≠ wThermal → b.peek w = s.blk.peek w))
  ∧ (∀ s : State, s.live →
    (s.blk.bootStage = 6 ∨ s.blk.bootStage = 7 → (∀ p < 6, s.blk.settled p = true) →
        After .startupTrainingEnd s fun b => b.bootStage = (if s.blk.rf wTimeStatus 63 63 = 1 then 8 else 7)
          ∧ (s.blk.boot.early = none ∨ s.blk.rf wTimeStatus 63 63 = 1 → b.rf wStartup 63 60 = b.bootStage))
    ∧ (s.blk.bootStage = 8 → s.blk.phase ≠ 2 → s.blk.phase ≠ 3 → s.blk.phase ≠ 4 → ∀ (eng : Nat) (seqOk : Bool),
        let failed := s.blk.boot.sramFailed ||| eng % 4096
        let good := popCount 12 (({ s.blk with boot := { s.blk.boot with failed } }).enginesGood)
        After (.knownAnswerRun eng seqOk) s fun b => b.boot.failed = failed ∧ b.boot.seqGood = seqOk
          ∧ (10 ≤ good → b.rst.down = false ∧ b.rst.closed = false ∧ b.boot.published = true ∧ b.rf wStartup 63 60 = 10)
          ∧ (good < 10 → b.rst.down = s.blk.rst.down ∧ b.rf wStartup 63 60 = 0xF ∧ b.rf wStartup 59 56 = 3)))

/-- A Mildom request is taken while the block has its address and its core runs (R513 to R516): one whose CRC fails is answered
BAD_CRC and does nothing else, one during an image check is answered BUSY; a read answers STATUS OK and the register's word, a write
acts as a privileged register-port write, RESET acts on the level it names and answers BAD_COMMAND to another, as a command byte
outside Table 14.2 is answered; each answer ends in its CRC. The byte order of its operands is the model's choice (log entry 43). An
image offered over Mildom during the boot wait (R424, R426): IMAGE_OFFER opens the offer, IMAGE_DATA adds bytes at their offset and
takes back a check that has passed, IMAGE_END starts the check, outside the boot wait each is answered BAD_COMMAND; a check that
passes makes the image the one to run, one that fails shows the first test that does, a missing byte failing the third. -/
def Obligations.MildomCommands : Prop :=
  (∀ s : State, s.live → s.blk.boot.restarting = false →
    let answers := fun (m : List Byte) (b : Block) => b.boot.answer = m ++ [BitVec.ofNat 8 (crc8 m)]
    (∀ addr, After (.entdaa addr) s fun b => b.boot.addr = some (addr % 128))
    ∧ (s.blk.boot.addr ≠ none → ∀ reg (v : Word) crc, crc ≠ crc8 (2#8 :: toBytes 2 reg ++ toBytes 8 v.toNat) →
        ∀ d, After (.mildomRegWrite reg { what := v, d } crc) s fun b =>
          answers [1#8] b ∧ b = { s.blk with boot := { s.blk.boot with answer := b.boot.answer } })
    ∧ (s.blk.boot.addr ≠ none → s.blk.boot.checking = true → ∀ reg d crc, crc = crc8 (1#8 :: toBytes 2 reg) →
        After (.mildomRegRead { what := reg, d } crc) s fun b =>
          answers [3#8] b ∧ b = { s.blk with boot := { s.blk.boot with answer := b.boot.answer } })
    ∧ (s.blk.boot.addr ≠ none → s.blk.boot.checking = false →
      (∀ reg crc, crc = crc8 (1#8 :: toBytes 2 reg) →
        ∀ d, After (.mildomRegRead { what := reg, d } crc) s (answers (0#8 :: toBytes 8 (s.blk.regRead (reg % 65536)).toNat)))
      ∧ (∀ reg (v : Word) crc, crc = crc8 (2#8 :: toBytes 2 reg ++ toBytes 8 v.toNat) →
        ∀ d, After (.mildomRegWrite reg { what := v, d } crc) s fun b => answers [0#8] b
          ∧ ∀ t, exec (.registerWrite true (reg % 65536) { what := v, d } (rpCheck (reg % 65536) v)) s = .next t →
              b.regs = t.blk.regs ∧ b.segmap = t.blk.segmap ∧ b.ctrs = t.blk.ctrs ∧ b.keyRoot = t.blk.keyRoot ∧ b.rst = t.blk.rst
              ∧ b.fwd = t.blk.fwd ∧ b.fold = t.blk.fold ∧ b.ports = t.blk.ports)
      ∧ (∀ q : MildomReq, q.code < 256 → q.code = 0 ∨ 6 < q.code → q.crc = crc8 (BitVec.ofNat 8 q.code :: q.data) →
        After (.imageEnd q) s fun b =>
          answers [2#8] b ∧ b = { s.blk with boot := { s.blk.boot with answer := b.boot.answer } })
      ∧ (∀ level crc, level < 256 → crc = crc8 [6#8, BitVec.ofNat 8 level] → After (.mildomReset level crc) s fun b =>
        (level = 2 → s.blk.rst.level < 3 → answers [0#8] b ∧ b.rst.level = 3 ∧ b.rst.down = true ∧ b.rst.draining = true
          ∧ b.rf (rs 0x048) 56 53 = 7)
        ∧ (level = 3 → s.blk.rst.level < 4 → answers [0#8] b ∧ b.rst.level = 4 ∧ b.rst.down = true ∧ b.rf (rs 0x048) 56 53 = 7)
        ∧ (level ≠ 2 → level ≠ 3 → answers [2#8] b ∧ b.rst = s.blk.rst ∧ b.regs = s.blk.regs))))
  ∧ (∀ s : State, s.live → s.blk.boot.restarting = false → s.blk.boot.addr ≠ none →
    (s.blk.boot.checking = false → s.blk.bootStage ≠ 3 → ∀ len crc, crc = crc8 (3#8 :: toBytes 4 len) →
      After (.imageOffer len crc) s fun b => b.boot.answer = [2#8, BitVec.ofNat 8 (crc8 [2#8])] ∧ b.boot.offer = s.blk.boot.offer)
    ∧ (s.blk.boot.checking = false → s.blk.bootStage = 3 →
      (∀ len crc, crc = crc8 (3#8 :: toBytes 4 len) →
        After (.imageOffer len crc) s fun b => b.boot.offer = some (len % 2 ^ 32) ∧ b.boot.offered = [] ∧ b.boot.offerOk = false)
      ∧ (s.blk.boot.offer ≠ none →
        (∀ off (data : List Byte) crc, data ≠ [] → data.length ≤ 256 → crc = crc8 (4#8 :: toBytes 4 off ++ data) →
          After (.imageData off data crc) s fun b =>
            b.boot.offered = s.blk.boot.offered ++ [(off % 2 ^ 32, data)] ∧ b.boot.offerOk = false)
        ∧ ∀ crc, crc = crc8 [5#8] →
          After (.imageEnd { crc }) s fun b => b.boot.checking = true ∧ b.rf (regAt 0x01 0x808) 63 63 = 0))
    ∧ (s.blk.boot.checking = true → ∀ digest sig,
        let first := s.blk.imageCode 1 s.blk.offeredImage false digest sig
        let code := if none ∈ s.blk.offeredBytes ∧ first ≠ 1 ∧ first ≠ 2 then 3 else first
        After (.imageCheckDone digest sig) s fun b => b.boot.checking = false ∧ (b.boot.offerOk = true ↔ code = 0)
          ∧ b.rf (regAt 0x01 0x808) 63 63 = 1 ∧ b.rf (regAt 0x01 0x808) 62 62 = (if code = 0 then 0 else 1)
          ∧ b.rf (regAt 0x01 0x808) 61 58 = code))

/-- JTAG (R517 to R519, R545): the standard instructions select their registers, the EXTEST forms hold every port in DOWN with cause
SOFTWARE, after which a request that arrives changes nothing, and until the key root is written REG_ACCESS acts as a privileged
register-port write or read (as a write without privilege on the pages that only the register port and Mildom write, R431, R476,
R529; log entry 23), FUSE_WRITE blows the variant code once, and MBIST clears the tables it tests with the outcome of Table 11.4; from then on the
three do nothing. The numbers of the instructions are the model's choice (log entry 31), and what MBIST clears and does beside is log
entry 42's. -/
def Obligations.JtagInstructions : Prop :=
  ∀ s : State, s.live →
    (After .bypass s fun b => b.boot.jtagIr = 0 ∧ b.boot.jtagDr = 0 ∧ b.regs = s.blk.regs)
    ∧ (After .idcode s fun b => b.boot.jtagIr = 1 ∧ b.boot.jtagDr / 2 ^ 28 = 1 ∧ b.boot.jtagDr / 2 ^ 12 % 2 ^ 16 = 0x05C6)
    ∧ (∀ x y, After (.samplePreload x y) s fun b => b.boot.jtagDr = x ∧ b.boot.boundary = y ∧ b.regs = s.blk.regs)
    ∧ (∀ x ∈ [(Instr.extest, 3), (.extestPulse, 4), (.extestTrain, 5)], After x.1 s fun b => b.boot.extest = true
        ∧ b.boot.jtagIr = x.2 ∧ b.boot.jtagDr = s.blk.boot.boundary ∧ ∀ q ∈ b.ports.take 6, q.st = 0 ∧ q.cause = 8)
    ∧ (s.blk.boot.extest = true → ∀ (p : Packet) (f : Finds), ∀ x ∈ requests p f, After x.1 s fun b => b = s.blk)
    ∧ (s.blk.keyRoot = none →
      (∀ reg (v : Word) d, After (.regAccess true reg { what := v, d }) s fun b => b.boot.jtagIr = 6 ∧ b.boot.jtagDr = v.toNat
        ∧ ∀ t, exec (.registerWrite (!(guarded reg)) reg { what := v, d } (rpCheck (reg % 65536) v)) s = .next t →
            b.regs = t.blk.regs ∧ b.segmap = t.blk.segmap ∧ b.keyRoot = t.blk.keyRoot ∧ b.rst = t.blk.rst ∧ b.fold = t.blk.fold)
      ∧ (∀ reg (v : Word) d, After (.regAccess false reg { what := v, d }) s fun b => b.boot.jtagDr = (s.blk.regRead reg).toNat)
      ∧ (∀ code, code ≤ 2 → s.blk.boot.fuseVariant = none →
          After (.fuseWrite code) s fun b => b.boot.fuseVariant = some code ∧ b.rf wCode 8 8 = 0 ∧ b.rf wCode 3 0 = code)
      ∧ (∀ code, 2 < code ∨ s.blk.boot.fuseVariant ≠ none →
          After (.fuseWrite code) s fun b => b.boot.fuseVariant = s.blk.boot.fuseVariant ∧ b.peek wCode = s.blk.peek wCode)
      ∧ (∀ (eng port : Nat) (other : Bool),
          let good := popCount 12 (({ s.blk with boot := { s.blk.boot with failed := s.blk.boot.failed ||| eng % 4096 } }).enginesGood)
          After (.mbist eng port other) s fun b =>
            b.segmap = [] ∧ b.ctrs = [] ∧ b.groups = [] ∧ b.fold.store = [] ∧ b.boot.failed = s.blk.boot.failed ||| eng % 4096
            ∧ (∀ p < 6, bitN port p = true → (b.port p).st = 0)
            ∧ (other = true → b.rf wStartup 63 60 = 0xF ∧ b.rf wStartup 59 56 = 2)
            ∧ (other = false → good < 10 → b.rf wStartup 63 60 = 0xF ∧ b.rf wStartup 59 56 = 3)
            ∧ (other = false → 10 ≤ good → b.peek wStartup = s.blk.peek wStartup)))
    ∧ (s.blk.keyRoot ≠ none → ∀ (write : Bool) (reg : Nat) (v : Checked Word) (code eng port : Nat) (other : Bool),
        ∀ c ∈ [Instr.regAccess write reg v, .fuseWrite code, .mbist eng port other], After c s fun b => b = s.blk)

/-! ### The register window -/

/-- The register port. An access whose RP_WCHK fails, a read or a write, has no effect but its count and RP_ERR (R281, R284); a
privileged write of a register with no rule of its own replaces its writable fields and clears those that a written 1 clears; a write
without privilege is ignored and counted in PAGE_ERRORS with KIND 0x1, whatever register it names but those of Table 15.1 (R532, R538).
That a privileged write counts also where a page's prose speaks of one writer is the model's reading (log entry 23). -/
def Obligations.RegisterWrites : Prop :=
  ∀ s : State, s.live →
    let counted := fun (w w0 kind off : Nat) (b : Block) =>
      b.peek w = setFld (setFld (satAdd (s.blk.peek w0) 1) 63 60 kind) 57 49 off ∧ (∀ w', w' ≠ w → b.peek w' = s.blk.peek w')
        ∧ b = { s.blk with regs := b.regs, rp := b.rp }
    (∀ w (d : RegDef), plainReg w d → s.blk.answers w → ∀ (v : Word) (f : Darn),
        After (.registerWrite true w { what := v, d := f } (rpCheck w v)) s fun b => Says s.blk b 0 false
          ∧ b.peek w = ((s.blk.peek w &&& ~~~(word d.rw)) ||| (v &&& word d.rw)) &&& ~~~(v &&& word d.w1c)
          ∧ (∀ w', w' ≠ w → b.peek w' = s.blk.peek w') ∧ b = { s.blk with regs := b.regs, rp := b.rp })
    ∧ (∀ w (v : Word) (f : Darn), isReg w = true → anyWriter w = false → s.blk.answers w →
        After (.registerWrite false w { what := v, d := f } (rpCheck w v)) s fun b => Says s.blk b 0 false
          ∧ counted (regAt (w / 512) 0x018) (regAt (w / 512) 0x018) 1 (w % 512) b)
    ∧ (∀ (n wchk : Nat) (v : Word) (f : Darn), ∀ x ∈ portWrites ⟨false, wchk⟩ n v f,
        wchk % 256 = rpCheck (x.2.1 % 65536) x.2.2 → isReg x.2.1 = true → s.blk.answers x.2.1 → After x.1 s fun b => Says s.blk b 0 false
          ∧ counted (regAt (x.2.1 / 512) 0x018) (regAt (x.2.1 / 512) 0x018) 1 (x.2.1 % 512) b)
    ∧ (∀ (rp : Rp) (n : Nat) (v : Word) (f : Darn), ∀ x ∈ portWrites rp n v f ++ portOthers rp n v f,
        rp.wchk % 256 ≠ rpCheck (x.2.1 % 65536) x.2.2 → After x.1 s fun b => Says s.blk b 0 true
          ∧ counted (regAt 0x7F 0x018) (regAt 0x7F 0x018) 6 0 b)

/-- Frames of the register writes and of the events that end them: taken up, refused or ignored, whoever writes, each changes
nothing but the registers, the port's last answer, and the table or unit named here with it (a counted event joins the interval
counts of `obs`) (R46, R59, R532, R538). -/
def Obligations.WriteFrames : Prop :=
  ∀ (s : State) (priv : Rp) (v : Word) (n k : Nat) (d : Darn), s.live →
    let b := s.blk
    let read := fun (x : IndexedReg) (d : Darn) => Instr.indexedEntryRead ⟨⟨x, v, k⟩, d⟩
    let keeps := fun (cs : List Instr) (f : Block → Block) =>
      ∀ c ∈ cs, After c s fun a => a = { f a with regs := a.regs, rp := a.rp }
    keeps [.deriveInWrite priv v, .profileWrite priv n v, .classShareWrite priv n v, .linkQuiesce priv n v,
        .fwActivateWrite priv v, .pstoreLockWrite priv v, .lockClearTakesEffect n, .soloWrite priv v, .creaseTickWrite priv v,
        .creaseResumeWrite priv v, .hostChannelMapWrite priv n v, .clockRequestWrite priv v, read .segmap d, read .ctr .good,
        read .route d, read .ctxt d, read (.pstore n) d] (fun _ => b)
    ∧ keeps [.segmapEntryWrite priv v] (fun a => { b with segmap := a.segmap, segBad := a.segBad })
    ∧ keeps [.segmapFenceRequest priv v, .segmapFenceDone] (fun a => { b with segFence := a.segFence })
    ∧ keeps [.keyRootWrite priv v] (fun a => { b with keyRoot := a.keyRoot })
    ∧ keeps [.ctrValueWrite priv v, .ctrAddWrite priv ⟨v, d⟩, .kernelBoundaryCommand ⟨⟨v, k⟩, d⟩, read .ctr d]
        (fun a => { b with ctrs := a.ctrs, ctrBad := a.ctrBad, mirrorDue := a.mirrorDue, obs := a.obs,
                           fold := { b.fold with progs := a.fold.progs } })
    ∧ keeps [.ctrGroupEntryWrite priv v] (fun a => { b with groups := a.groups, groupBad := a.groupBad })
    ∧ keeps [.ctrFenceRequest priv v, .ctrFenceDone] (fun a => { b with ctrFence := a.ctrFence })
    ∧ keeps [.seedWrite priv v] (fun a => { b with mangle := { b.mangle with gens := a.mangle.gens } })
    ∧ keeps [.pstoreHighWrite priv n v] (fun a => { b with fold := { b.fold with store := a.fold.store, bad := a.fold.bad } })
    ∧ keeps [.pstoreLowRead ⟨n, v, k⟩] (fun a => { b with fold := { b.fold with latch := a.fold.latch } })
    ∧ keeps [.routeEntryWrite priv v] (fun a => { b with fwd := { b.fwd with routes := a.fwd.routes } })
    ∧ keeps [.routeGroupEntryWrite priv v] (fun a => { b with fwd := { b.fwd with groups := a.fwd.groups } })
    ∧ keeps [.switchTickWrite priv v, .epochRetire] (fun a => { b with fwd := { b.fwd with other := a.fwd.other, zeroEdges := a.fwd.zeroEdges } })
    ∧ keeps [.hamperFlushWrite priv v] (fun a => { b with fwd := { b.fwd with pkts := a.fwd.pkts } })
    ∧ keeps [.contextHoldWrite priv v] (fun a => { b with rst := { b.rst with hold := a.rst.hold } })
    ∧ keeps [.rinseRequest priv v] (fun a => { b with rst := { b.rst with rinseDue := a.rst.rinseDue, rinseStart := a.rst.rinseStart } })
    ∧ keeps [.timePeriodWrite priv v] (fun a => { b with time := { b.time with periodDue := a.time.periodDue } })
    ∧ keeps [.creditLimitWrite priv n v] (fun a => { b with ports := a.ports })
    ∧ keeps [.bitslipWrite priv n v, .bitslipDone n, .testModeWrite priv n v] (fun a => { b with lanes := a.lanes })
    ∧ keeps [.ctrsClearWrite priv v, .snapshotRequest priv v] (fun a => { b with obs := a.obs })
    ∧ keeps [.variantFusedWrite priv v, .watchdogKick (d == .good) ⟨v, k⟩] (fun a => { b with boot := a.boot })

/-- A read of an entry register answers the selected entry, and advances the index when AUTO_INC is 1 (R548); a Segment Map entry of a
bank that is not good reads as zero (R50). What the check of a counter's word finds as it is read is counted, and sets POISONED where
it cannot be corrected (R159). That the word of a poisoned counter, of a poisoned entry and of the program store reads as it is held is
the model's reading (log entry 56). -/
def Obligations.IndexedReads : Prop :=
  ∀ s : State, s.live → s.blk.rst.down = false → ∀ d : Darn,
    (let i := s.blk.rf (sg 0x040) 19 0
     After (.indexedEntryRead ⟨rpRead .segmap (sg 0x048), d⟩) s fun b =>
        (s.blk.rf (sg 0x070) (i % 64) (i % 64) = 1 → Says s.blk b (Tbl.get 0 s.blk.segmap i) false)
        ∧ (s.blk.rf (sg 0x070) (i % 64) (i % 64) = 0 → Says s.blk b 0 false)
        ∧ b.rf (sg 0x040) 19 0 = (if s.blk.rf (sg 0x040) 63 63 = 1 then (i + 1) % 2 ^ 20 else i) ∧ b.segmap = s.blk.segmap)
    ∧ (let n := s.blk.rf (ct 0x040) 15 0
       After (.indexedEntryRead ⟨rpRead .ctr (ct 0x048), d⟩) s fun b => Says s.blk b (Tbl.get 0 s.blk.ctrs n) false
        ∧ b.rf (ct 0x040) 15 0 = (if s.blk.rf (ct 0x040) 63 63 = 1 then (n + 1) % 2 ^ 16 else n) ∧ b.ctrs = s.blk.ctrs
        ∧ (d ≠ .bad → b.ctrBad = s.blk.ctrBad)
        ∧ (d = .corrected → b.rf (regAt 0x60 0x018) 63 60 = 4)
        ∧ (d = .bad → b.ctrBad.contains n = true ∧ (s.blk.ctrBad.contains n = false →
            b.peek (ct 0x100) = satAdd (s.blk.peek (ct 0x100)) 1)))
    ∧ (let i := s.blk.rf (rt 0x058) 14 0
       After (.indexedEntryRead ⟨rpRead .route (rt 0x060), d⟩) s fun b =>
        Says s.blk b (word (Tbl.get 0 s.blk.fwd.routes (i + 2 ^ 15 * s.blk.rf (rt 0x058) 15 15))) false
        ∧ b.rf (rt 0x058) 14 0 = (if s.blk.rf (rt 0x058) 63 63 = 1 then (i + 1) % 2 ^ 15 else i) ∧ b.fwd = s.blk.fwd)
    ∧ (let c := s.blk.rf (cx 0x040) 11 0
       After (.indexedEntryRead ⟨rpRead .ctxt (cx 0x048), d⟩) s fun b => Says s.blk b b.rp.rdata false
        ∧ fld b.rp.rdata 61 61 = fld (Tbl.get 0 s.blk.rst.hold c) 1 1 ∧ fld b.rp.rdata 60 60 = fld (Tbl.get 0 s.blk.rst.hold c) 0 0
        ∧ b.rf (cx 0x040) 11 0 = (if s.blk.rf (cx 0x040) 63 63 = 1 then (c + 1) % 2 ^ 12 else c) ∧ b.rst = s.blk.rst)
    ∧ (∀ w, After (.indexedEntryRead ⟨rpRead (.plain w) w, d⟩) s fun b => Says s.blk b (s.blk.regRead w) false
        ∧ (pageKind (w / 512) = none → Says s.blk b 0 false))
    ∧ (∀ x < 8, After (.indexedEntryRead ⟨rpRead (.pstore x) (regAt (0x41 + x) 0x050), d⟩) s fun b =>
        Says s.blk b (s.blk.fold.latch.getD x 0) false
        ∧ b.rf (regAt (0x41 + x) 0x040) 13 0
          = (if s.blk.rf (regAt (0x41 + x) 0x040) 63 63 = 1 then (s.blk.rf (regAt (0x41 + x) 0x040) 13 0 + 1) % 2 ^ 14
             else s.blk.rf (regAt (0x41 + x) 0x040) 13 0))

/-! ### The Segment Map and its keys -/

/-- A privileged write of SEGMAP.ENTRY that neither R50 nor R55 refuses replaces the selected entry whole and no other; here the
word of the entry holds no uncorrectable error. Into a word that holds one, the other three entries of the word lose VALID, and three are
counted with KIND 0x5 (R66). A write of SEGMAP.ENTRY that R50 or R55 refuses leaves the map and is counted with KIND 0x2; an unprivileged
one is ignored. -/
def Obligations.SegmapEntryWrites : Prop :=
  (∀ (s : State) (v : Word), s.live → s.blk.rst.down = false →
    let i := s.blk.rf (sg 0x040) 19 0
    s.blk.rf (sg 0x070) (i % 64) (i % 64) = 1 →
    (bit v 63 = true → fld v 62 61 ≠ 3
      ∧ (fld v 62 61 = 1 → s.blk.inScratch (s.blk.hpa v 0) = true) ∧ (fld v 62 61 = 0 → s.blk.inScratch (s.blk.hpa v 0) = false)) →
    After (.segmapEntryWrite (rpOk true (sg 0x048) v) v) s fun b => Tbl.get 0 b.segmap i = v
      ∧ b.ctrs = s.blk.ctrs ∧ b.groups = s.blk.groups ∧ b.req = s.blk.req
      ∧ (s.blk.segBad.contains (segWord i) = false → (∀ j, j ≠ i → Tbl.get 0 s.blk.segmap j = Tbl.get 0 b.segmap j)
          ∧ ∀ w, w ≠ sg 0x040 → b.peek w = s.blk.peek w)
      ∧ (s.blk.segBad.contains (segWord i) = true → b.segBad.contains (segWord i) = false
          ∧ (∀ j, j ≠ i → segWord j = segWord i → bit (Tbl.get 0 b.segmap j) 63 = false)
          ∧ (∀ j, segWord j ≠ segWord i → Tbl.get 0 b.segmap j = Tbl.get 0 s.blk.segmap j)
          ∧ b.rf (regAt 0x58 0x018) 63 60 = 5 ∧ b.rf (regAt 0x58 0x018) 47 0 = min (2 ^ 48 - 1) (s.blk.rf (regAt 0x58 0x018) 47 0 + 3)))
  ∧ (∀ (s : State) (v : Word), s.live → s.blk.rst.down = false →
    (let i := s.blk.rf (sg 0x040) 19 0
     (s.blk.rf (sg 0x070) (i % 64) (i % 64) = 0 ∨ (bit v 63 = true ∧ (fld v 62 61 = 3
        ∨ (fld v 62 61 = 1 ∧ s.blk.inScratch (s.blk.hpa v 0) = false) ∨ (fld v 62 61 = 0 ∧ s.blk.inScratch (s.blk.hpa v 0) = true)))) →
     After (.segmapEntryWrite (rpOk true (sg 0x048) v) v) s fun b => b.segmap = s.blk.segmap ∧ b.segBad = s.blk.segBad
        ∧ b.rf (regAt 0x58 0x018) 63 60 = 2 ∧ b.rf (regAt 0x58 0x018) 57 49 = 9)
    ∧ After (.segmapEntryWrite (rpOk false (sg 0x048) v) v) s fun b => b.segmap = s.blk.segmap ∧ b.rf (regAt 0x58 0x018) 63 60 = 1
        ∧ b.peek (sg 0x040) = s.blk.peek (sg 0x040))

/-- The Segment Map fence (R74): a request clears DONE and adds to what the fence waits for whatever it would wait for now; DONE
sets once nothing waited for is open. That the fence waits for landing places and local accesses is the model's reading (log entries
26, 36). The first write of SEGMAP.KEY_ROOT after a cold reset sets the root; a later one leaves it and is counted (R20, R59). What is
written to DERIVE_IN is answered by DERIVE_OUT at once: the entry key itself without a root, and with one its exclusive or with F of the
root, the source chip and the source context (R58, R60). -/
def Obligations.SegmapFenceAndKeys : Prop :=
  (∀ (s : State), s.live →
    (s.blk.rst.down = false → ∀ v : Word,
      After (.segmapFenceRequest (rpOk true (sg 0x050) (setBit v 0 true)) v) s fun b => b.rf (sg 0x050) 63 63 = 0
        ∧ (∀ x ∈ s.blk.fenceSet, x ∈ b.segFence) ∧ (∀ x ∈ s.blk.segFence, x ∈ b.segFence) ∧ b.segmap = s.blk.segmap)
    ∧ (s.blk.rf (sg 0x050) 63 63 = 0 → (∀ x ∈ s.blk.segFence, s.blk.fenceOpen x = false) →
        After .segmapFenceDone s fun b => b.rf (sg 0x050) 63 63 = 1 ∧ b.segFence = []))
  ∧ (∀ (s : State) (v : Word), s.live → s.blk.rst.down = false →
    let root := rpOk true (sg 0x078) v
    (s.blk.keyRoot = none → After (.keyRootWrite root v) s fun b => b.keyRoot = some v ∧ b.rf (sg 0x080) 0 0 = 0)
    ∧ (∀ r, s.blk.keyRoot = some r → After (.keyRootWrite root v) s fun b => b.keyRoot = some r
        ∧ b.rf (regAt 0x58 0x018) 63 60 = 3 ∧ b.rf (regAt 0x58 0x018) 57 49 = 15)
    ∧ (After (.deriveInWrite (rpOk true (sg 0x088) v) v) s fun b => b.rf (sg 0x088) 15 0 = fld v 15 0 ∧ b.rf (sg 0x088) 30 16 = fld v 30 16
        ∧ b.rf (sg 0x088) 43 32 = fld v 43 32 ∧ b.keyRoot = s.blk.keyRoot
        ∧ (s.blk.keyRoot = none → b.regRead (sg 0x090) = word (fld v 15 0))
        ∧ ∀ r, s.blk.keyRoot = some r →
            b.regRead (sg 0x090) = word (fld v 15 0 ^^^ (Config.keyF r (fld v 30 16) (fld v 43 32)).toNat)))

/-! ### Arrival counters -/

/-- CTR.VALUE replaces the selected counter and clears POISONED; CTR.ADD adds modulo 2⁶⁴, and is dropped and counted while the
counter is poisoned, as it is once the add finds an uncorrectable error there; CTR.GROUP_ENTRY replaces the group's entry; the
kernel-boundary command counts and, where KB_CTRL enables it, advances the counter it names (R151, R159, R175, R68, R277). The
counter fence (R176) and the mirror (R157): a request clears DONE and waits for every mirror write due or under way; DONE sets once
each of them has been accepted; a mirror write that is due leaves as one access carrying the counter's present value, unless the
counter is poisoned or its group's mirror is off, which ends it unsent. -/
def Obligations.CounterPage : Prop :=
  (∀ (s : State) (v : Word), s.live → s.blk.rst.down = false →
    (let n := s.blk.rf (ct 0x040) 15 0
     let add := fun (d : Darn) => Instr.ctrAddWrite (rpOk true (ct 0x050) v) ⟨v, d⟩
     (After (.ctrValueWrite (rpOk true (ct 0x048) v) v) s fun b => Tbl.get 0 b.ctrs n = v ∧ b.ctrBad.contains n = false
        ∧ (∀ k, k ≠ n → Tbl.get 0 b.ctrs k = Tbl.get 0 s.blk.ctrs k) ∧ b.segmap = s.blk.segmap)
     ∧ (s.blk.ctrBad.contains n = false → ∀ d, d ≠ .bad → After (add d) s fun b =>
        Tbl.get 0 b.ctrs n = Tbl.get 0 s.blk.ctrs n + v ∧ (∀ k, k ≠ n → Tbl.get 0 b.ctrs k = Tbl.get 0 s.blk.ctrs k)
        ∧ ∀ w, w ≠ regAt 0x60 0x018 → b.peek w = s.blk.peek w)
     ∧ (s.blk.ctrBad.contains n = true → ∀ d, After (add d) s fun b => b.ctrs = s.blk.ctrs
        ∧ b.peek (ct 0x108) = satAdd (s.blk.peek (ct 0x108)) 1)
     ∧ (s.blk.ctrBad.contains n = false → After (add .bad) s fun b => b.ctrs = s.blk.ctrs
        ∧ b.ctrBad.contains n = true ∧ b.peek (ct 0x100) = satAdd (s.blk.peek (ct 0x100)) 1
        ∧ b.peek (ct 0x108) = satAdd (s.blk.peek (ct 0x108)) 1))
    ∧ (let g := s.blk.rf (ct 0x060) 9 0
       After (.ctrGroupEntryWrite (rpOk true (ct 0x068) v) v) s fun b => Tbl.get 0 b.groups g = v &&& groupMask
        ∧ (∀ k, k ≠ g → Tbl.get 0 b.groups k = Tbl.get 0 s.blk.groups k) ∧ b.regs = s.blk.regs ∧ b.ctrs = s.blk.ctrs)
    ∧ (let n := s.blk.rf (hc 0 0x838) 15 0
       let kb := fun (d : Darn) => Instr.kernelBoundaryCommand ⟨rpWord (hc 0 0x840) v, d⟩
       (bit v 0 = true → ∀ d, After (kb d) s fun b => b.peek (hc 0 0x848) = satAdd (s.blk.peek (hc 0 0x848)) 1
          ∧ (∀ k, k ≠ n → Tbl.get 0 b.ctrs k = Tbl.get 0 s.blk.ctrs k)
          ∧ (s.blk.rf (hc 0 0x838) 63 63 = 1 → n ≠ 0 → s.blk.ctrBad.contains n = false → d ≠ .bad →
              Tbl.get 0 b.ctrs n = Tbl.get 0 s.blk.ctrs n + 1)
          ∧ (s.blk.rf (hc 0 0x838) 63 63 = 0 ∨ n = 0 ∨ s.blk.ctrBad.contains n = true ∨ d = .bad → b.ctrs = s.blk.ctrs))
       ∧ (bit v 0 = false → ∀ d, After (kb d) s fun b => b.regs = s.blk.regs ∧ b.ctrs = s.blk.ctrs)))
  ∧ (∀ (s : State), s.live → s.blk.rst.down = false →
    (∀ v : Word, After (.ctrFenceRequest (rpOk true (ct 0x070) (setBit v 0 true)) v) s fun b => b.rf (ct 0x070) 63 63 = 0 ∧ (∀ n ∈ s.blk.mirrorDue, n ∈ b.ctrFence)
        ∧ (∀ j ∈ s.blk.host.jobs, ∀ n, j.kind = .mirror n → 65536 + j.id ∈ b.ctrFence)
        ∧ (∀ x ∈ s.blk.ctrFence, x ∈ b.ctrFence) ∧ b.ctrs = s.blk.ctrs)
    ∧ (s.blk.rf (ct 0x070) 63 63 = 0 →
        (∀ x ∈ s.blk.ctrFence, (x < 65536 → x ∉ s.blk.mirrorDue) ∧ (65536 ≤ x → ∀ j ∈ s.blk.host.jobs, j.id ≠ x - 65536)) →
        After .ctrFenceDone s fun b => b.rf (ct 0x070) 63 63 = 1 ∧ b.ctrFence = [])
    ∧ (s.blk.rf (ct 0x070) 63 63 = 0 →
        (∃ x ∈ s.blk.ctrFence, (x < 65536 ∧ x ∈ s.blk.mirrorDue) ∨ (65536 ≤ x ∧ ∃ j ∈ s.blk.host.jobs, j.id = x - 65536)) →
        After .ctrFenceDone s fun b => b = s.blk)
    ∧ (∀ n, n ∈ s.blk.mirrorDue → n < 65536 →
        (s.blk.ctrBad.contains n = false → s.blk.mirrored n = true → ∀ d, d ≠ .bad →
          After (.mirrorWrite ⟨n, d⟩) s fun b => n ∉ b.mirrorDue
            ∧ b.host.jobs = s.blk.host.jobs ++ [({ id := s.blk.host.nextJob, kind := .mirror n, len := 8, left := 1,
                                                   addr := s.blk.rf (ct 0x078) 51 19 * 2 ^ 19 + 8 * n } : Job)]
            ∧ (n ∈ s.blk.ctrFence → 65536 + s.blk.host.nextJob ∈ b.ctrFence) ∧ n ∉ b.ctrFence ∧ b.ctrs = s.blk.ctrs)
        ∧ (∀ d, s.blk.ctrBad.contains n = true ∨ s.blk.mirrored n = false ∨ d = .bad →
          After (.mirrorWrite ⟨n, d⟩) s fun b => n ∉ b.mirrorDue ∧ n ∉ b.ctrFence ∧ b.host = s.blk.host ∧ b.ctrs = s.blk.ctrs)))

/-! ### Mangle engines and host channels -/

/-- A PROFILE word that R188 refuses stays as it was, another takes its writable field; SEED restarts the generator that GEN selects
(R197); a microcode load is taken on an idle, quiesced engine or a failed one and reads its header (R212); QUIESCE is stored (R211).
The end of a microcode load sets DONE, and FAILED where the image does not verify, the engine keeping its microcode; an image that
verifies becomes the engine's and shows its version, and the known-answer run says whether the engine is good (R212, R440, R442). A unit
that ends is counted, one that is lost as such (Table 5.13). -/
def Obligations.MangleEngines : Prop :=
  (∀ s : State, s.live → s.blk.rst.down = false →
    (∀ (p : Nat) (v : Word), p < 16 →
      After (.profileWrite (rpOk true (mg 0 (0x800 + 8 * p)) v) p v) s fun b =>
        (if bit v 63 && profileRefused (profileOf v.toNat 0) then b.peek (mg 0 (0x800 + 8 * p)) = s.blk.peek (mg 0 (0x800 + 8 * p))
          ∧ b.rf (regAt 0x30 0x018) 63 60 = 2
         else b.rf (mg 0 (0x800 + 8 * p)) 63 24 = fld v 63 24 ∧ b.rf (regAt 0x30 0x018) 63 60 = s.blk.rf (regAt 0x30 0x018) 63 60)
        ∧ ∀ k, k < 16 → k ≠ p → b.peek (mg 0 (0x800 + 8 * k)) = s.blk.peek (mg 0 (0x800 + 8 * k)))
    ∧ (∀ v : Word, After (.seedWrite (rpOk true (mg 0 0x908) v) v) s fun b =>
        Tbl.get ({} : Gen) b.mangle.gens (s.blk.rf (mg 0 0x900) 7 0) = { seed := v, pos := 0 } ∧ b.regs = s.blk.regs
        ∧ ∀ n, n ≠ s.blk.rf (mg 0 0x900) 7 0 → Tbl.get ({} : Gen) b.mangle.gens n = Tbl.get ({} : Gen) s.blk.mangle.gens n)
    ∧ (∀ (e : Nat) (v : Word), e < 12 →
        let load := Instr.ucodeLoadRequest (rpOk true (mg e 0x078) (setBit v 0 true)) e v
        (s.blk.engineState e = 2 ∨ s.blk.engineState e = 5 →
          After load s fun b => b.rf (mg e 0x078) 63 63 = 0 ∧ b.rf (mg e 0x078) 62 62 = 0
            ∧ ∃ j ∈ b.host.jobs, j.kind = .ucImage e false ∧ j.len = 512 ∧ j.id = s.blk.host.nextJob)
        ∧ (s.blk.engineState e ≠ 2 → s.blk.engineState e ≠ 5 →
          After load s fun b => b.peek (mg e 0x078) = s.blk.peek (mg e 0x078) ∧ b.mangle = s.blk.mangle
            ∧ b.rf (regAt (0x30 + e) 0x018) 63 60 = 2)
        ∧ After (.engineQuiesce (rpOk true (mg e 0x010) v) e v) s fun b => b.rf (mg e 0x010) 1 1 = fld v 1 1))
  ∧ (∀ (s : State) (e : Nat), s.live → e < 12 →
    ((s.blk.engine e).loading = true → (s.blk.engine e).imageRead = true → ∀ digest sig ok,
      let code := s.blk.imageCode 2 (s.blk.engine e).image (s.blk.engine e).imageBad digest sig
      let version := imageVersion (s.blk.engine e).image
      After (.ucodeLoadDone e digest sig ok) s fun b => b.rf (mg e 0x078) 63 63 = 1
        ∧ (code ≠ 0 → b.rf (mg e 0x078) 62 62 = 1 ∧ b.boot.failed = s.blk.boot.failed ∧ b.boot.ucode = s.blk.boot.ucode
            ∧ b.peek (mg e 0x070) = s.blk.peek (mg e 0x070))
        ∧ (code = 0 → b.rf (mg e 0x070) 31 0 = version % 2 ^ 32 ∧ b.boot.ucode = s.blk.boot.ucode.set e version
            ∧ (ok = false → bitN b.boot.failed e = true)
            ∧ (ok = true → bitN s.blk.boot.sramFailed e = false → bitN b.boot.failed e = false)))
    ∧ (∀ h : Held, (s.blk.engine e).held = some h →
        After (.mangleUnitDone e true) s (fun b => b.peek (mg e 0x068) = satAdd (s.blk.peek (mg e 0x068)) 1)
        ∧ (h.unit.bad = true →
            After (.mangleUnitDone e false) s fun b => b.peek (mg e 0x068) = satAdd (s.blk.peek (mg e 0x068)) 1)
        ∧ (h.unit.bad = false →
            After (.mangleUnitDone e false) s fun b => b.peek (mg e 0x048) = satAdd (s.blk.peek (mg e 0x048)) 1)))

/-- A host channel takes its QUIESCE and ENABLE bits, by either command, but the last enabled channel stays enabled (R280, R537); the
map and the capabilities are written only while every channel is quiesced or disabled, the map only with channels and a shift that
exist, and the capability written shows in FEATURES_OFFERED at once (R279, R542); what is refused stays as it was and is counted. -/
def Obligations.HostChannelRegisters : Prop :=
  ∀ s : State, s.live → s.blk.rst.down = false →
    (∀ (n : Nat) (v : Word), n < 12 → ∀ c ∈ [Instr.hostChannelQuiesce (rpOk true (hc n 0x010) v) n v, .hostChannelDisable (rpOk true (hc n 0x010) v) n v],
      let others := ∃ k, k < 12 ∧ k ≠ n ∧ s.blk.rf (hc k 0x010) 0 0 = 1
      (fld v 0 0 = 1 ∨ others → After c s fun b => b.rf (hc n 0x010) 1 0 = fld v 1 0)
      ∧ (fld v 0 0 = 0 → ¬others →
        After c s fun b => b.peek (hc n 0x010) = s.blk.peek (hc n 0x010) ∧ b.rf (regAt (0x20 + n) 0x018) 63 60 = 2 ∧ b.host = s.blk.host))
    ∧ (∀ (v : Word) (k : Nat), k < 6 →
      let good := if k = 0 then 12 ≤ fld v 4 0 ∧ fld v 4 0 ≤ 21 else if k < 5 then ∀ i, i < 16 → fld v (4 * i + 3) (4 * i) ≤ 11 else True
      let write := Instr.hostChannelMapWrite (rpOk true (hc 0 (0x800 + 8 * k)) v) k v
      (s.blk.chansQuiet = true → good → After write s fun b =>
        (k = 0 → b.rf (hc 0 0x800) 4 0 = fld v 4 0) ∧ (1 ≤ k → k < 5 → b.peek (hc 0 (0x800 + 8 * k)) = v)
          ∧ (k = 5 → b.rf (hc 0 0x828) 0 0 = fld v 0 0 ∧ b.rf wFeatOffered 14 14 = fld v 0 0))
      ∧ (s.blk.chansQuiet = false ∨ ¬good → After write s fun b =>
        b.rf (regAt 0x20 0x018) 63 60 = 2 ∧ ∀ w, w ≠ regAt 0x20 0x018 → b.peek w = s.blk.peek w))

/-- Responses of the host die (R260, R264, R266, R267): a beat that is not the last to come is kept under its number; the answer to a
read's last missing beat, a write or an atomic, whatever its STATUS, ends its access where nothing else of it is open, and else leaves
one answer fewer to wait for; a response whose header holds an uncorrectable error is dropped and counted; once HC0.TIMEOUT has passed
since the transfer the access ends and the tag stays in use, before then the timeout does nothing but let time pass. The write answer
that accepts the last of a packet's landing advances the counter that the packet names by its bytes, counts the packet in its flow and,
where nothing else of the flow waits, sends its receipt with the count (R25, R110, R111, R151, R152). Of the transfers that a channel
offers as many take place, in their order, as the host holds RQ_READY at 1 for (R255, R256). That RQ_READY changes with an answer, and
that HC0.TIMEOUT runs from the last transfer taken, is log entry 46's. -/
def Obligations.HostResponses : Prop :=
  (∀ (s : State) (ch tag : Nat) (t : Txn), s.carries → s.blk.txn? ch tag = some t → t.dead = false →
    let ends := fun (c : Instr) => ∀ j ∈ s.blk.host.jobs, s.blk.host.jobs.find? (fun x => x.id == t.job) = some j →
      After c s fun b => (j.left = 1 → ∀ x ∈ b.host.jobs, x.id = t.job → s.blk.host.nextJob ≤ x.id)
        ∧ (2 ≤ j.left → ∃ x ∈ b.host.jobs, x.id = t.job ∧ x.left + 1 = j.left)
    let timeout := fun (now : Nat) => Instr.hostTransactionTimeout ch ⟨{ tag }, now⟩
    (∀ status hdr ctr, hdr ≠ .bad →
      (t.kind = .rd → t.got.length + 1 < t.beats → ∀ beat words cycles, After (.rdata ch status { tag, beat } hdr words cycles) s fun b =>
        ∃ x, b.txn? ch tag = some x ∧ x.got = t.got ++ [(beat, beatBytes words)] ∧ x.dead = false ∧ x.job = t.job)
      ∧ (t.kind = .rd → t.beats ≤ t.got.length + 1 → ∀ beat words cycles, ends (.rdata ch status { tag, beat } hdr words cycles))
      ∧ (t.kind = .wr → ends (.wack ch status { tag } ⟨hdr, ctr⟩))
      ∧ (t.kind ≠ .rd → t.kind ≠ .wr → ∀ words, ends (.adata ch status { tag } hdr words)))
    ∧ (∀ status beat words cycles ctr,
        ∀ c ∈ [Instr.rdata ch status { tag, beat } .bad words cycles, .wack ch status { tag } ⟨.bad, ctr⟩,
            .adata ch status { tag } .bad words],
          After c s fun b => b.host = s.blk.host ∧ b.peek (hc ch 0x080) = satAdd (s.blk.peek (hc ch 0x080)) 1)
    ∧ (∀ now, (t.start + s.blk.hostLimit ≤ max s.blk.time.now now → ends (timeout now)
          ∧ After (timeout now) s fun b => ∃ x ∈ b.host.out, x.chan = ch ∧ x.tag = tag ∧ x.dead = true)
        ∧ (max s.blk.time.now now < t.start + s.blk.hostLimit → After (timeout now) s fun b => b = s.blk.clock now))
    ∧ (∀ j d hdr ctr, t.kind = .wr → s.blk.host.jobs.find? (fun x => x.id == t.job) = some j → j.left = 1 → j.bad = false →
        j.kind = .land d.id → s.blk.pkt? d.id = some d → d.status = 0 → (∀ q ∈ s.blk.dest.pkts, q.ofFlow d.src d.cls d.mc = true → q = d) →
        isFsync d.opcode = false → hdr ≠ .bad → ctr ≠ .bad →
        let f := s.blk.dflow d.src d.cls d.mc
        After (.wack ch 0 { tag } ⟨hdr, ctr⟩) s fun b => b.pkt? d.id = none
          ∧ (d.ctr ≠ 0 → s.blk.ctrBad.contains d.ctr = false → Tbl.get 0 b.ctrs d.ctr = Tbl.get 0 s.blk.ctrs d.ctr + word d.bytes)
          ∧ (∀ n, n ≠ d.ctr ∨ n = 0 → Tbl.get 0 b.ctrs n = Tbl.get 0 s.blk.ctrs n)
          ∧ (b.dflow d.src d.cls d.mc).count = (f.count + 1) % 2 ^ 24
          ∧ (f.silent = false → s.blk.dest.inbox = [] → Sends s.blk b fun q => hOp q.hdr = (if d.mc = none then 0x22 else 0x23)
              ∧ (3 ≤ d.cls → d.cls ≤ 5 → hRclass q.hdr = d.cls) ∧ fld q.hdr 63 60 = 0
              ∧ (d.mc = none → hDst q.hdr = d.src % 2 ^ 15 ∧ hCount q.hdr = (f.count + 1) % 2 ^ 24))))
  ∧ (∀ (s : State) (ch status k ctr : Nat), s.carries → ch < s.blk.host.ready.length → s.blk.boot.extest = false →
      let offered := s.blk.host.rq.getD ch []
      k < offered.length → offered.length ≤ 32 → (∀ y ∈ offered, ∃ t ∈ s.blk.host.out, t.chan = ch ∧ t.tag = y.1) →
      After (.wack ch status { tag := ctr, rq := .upTo k } { hdr := .bad }) s fun b =>
        b.host.rq.getD ch [] = offered.drop k ∧ b.host.jobs = s.blk.host.jobs ∧ b.dest = s.blk.dest)

/-! ### The FOLD page, the program store and routing -/

/-- A write of STREAM_ENABLE is stored; each stream whose bit rises has its counts cleared and its entry read (R84, R85). While a Rinse
runs its bit waits for the entry, which says whose stream it is (Table 12.2, R456; log entry 64). A doorbell is stored while its stream
has no accepted entry, or where its counts are in range (R87); one out of range disables the stream (R88). -/
def Obligations.StreamsAndDoorbells : Prop :=
  ∀ s : State, s.live → s.blk.rst.down = false →
    (∀ (k : Nat) (v : Word), k < 4 → (∀ i, i < 64 → (s.blk.stream (64 * k + i)).asking = none) →
      let rises := fun (i : Nat) => i < 64 ∧ bit v i = true ∧ bit (s.blk.peek (fo (0x048 + 8 * k))) i = false
      let asked := fun (i : Nat) (b : Block) =>
        ∃ j ∈ b.host.jobs, (∃ g, j.kind = .streamEntry (64 * k + i) g) ∧ j.len = 64 ∧ s.blk.host.nextJob ≤ j.id
      After (.streamEnable (rpOk true (fo (0x048 + 8 * k)) v) k v) s fun b =>
        (s.blk.rst.rinsing = false → b.peek (fo (0x048 + 8 * k)) = v
          ∧ ∀ i, rises i → b.peek (fo (0x800 + 8 * (64 * k + i))) = 0 ∧ asked i b)
        ∧ (∀ c, s.blk.rst.rinsing = true → s.blk.rst.rinse = some c →
            b.peek (fo (0x048 + 8 * k)) = s.blk.peek (fo (0x048 + 8 * k)) &&& v ∧ ∀ i, rises i → asked i b))
    ∧ (∀ (n : Nat) (v : Word), n < 256 →
      let ring := Instr.doorbell n (rpWord (fo (0x800 + 8 * n)) v)
      ((s.blk.stream n).ready = false ∨ s.blk.doorbellOk n v = true →
        After ring s fun b => b.rf (fo (0x800 + 8 * n)) 31 0 = fld v 31 0)
      ∧ ((s.blk.stream n).ready = true → s.blk.doorbellOk n v = false →
        After ring s fun b => b.enabled n = false ∧ b.peek (fo (0x800 + 8 * n)) = s.blk.peek (fo (0x800 + 8 * n))))

/-- The program store (R220, R221, R254): a write of HIGH stores LOW and HIGH as one instruction unless the region is locked; a read
of LOW answers the low word and latches the high one; a lock bit sets at once and clears once no program runs in its region. -/
def Obligations.ProgramStore : Prop :=
  ∀ s : State, s.live →
    (s.blk.rst.down = false → ∀ x, x < 8 →
      (∀ v : Word, After (.pstoreHighWrite (rpOk true (regAt (0x41 + x) 0x050) v) x v) s fun b =>
        let i := s.blk.rf (regAt (0x41 + x) 0x040) 13 0
        b.rf (regAt (0x41 + x) 0x040) 13 0 = (if s.blk.rf (regAt (0x41 + x) 0x040) 63 63 = 1 then (i + 1) % 2 ^ 14 else i)
        ∧ (bit (s.blk.peek (fo 0x100)) (i / 1024) = false →
            Tbl.get 0 b.fold.store i = BitVec.ofNat 128 ((s.blk.peek (regAt (0x41 + x) 0x048)).toNat + v.toNat * 2 ^ 64)
            ∧ b.fold.bad.contains i = false ∧ ∀ j, j ≠ i → Tbl.get 0 b.fold.store j = Tbl.get 0 s.blk.fold.store j)
        ∧ (bit (s.blk.peek (fo 0x100)) (i / 1024) = true →
            b.fold.store = s.blk.fold.store ∧ b.rf (regAt (0x41 + x) 0x018) 63 60 = 2))
      ∧ After (.pstoreLowRead (rpRead x (regAt (0x41 + x) 0x048))) s fun b =>
        let i := Tbl.get 0 s.blk.fold.store (s.blk.rf (regAt (0x41 + x) 0x040) 13 0)
        Says s.blk b (word i.toNat) false ∧ b.fold.latch = s.blk.fold.latch.set x (word (i.toNat / 2 ^ 64)) ∧ b.regs = s.blk.regs)
    ∧ (s.blk.rst.down = false → ∀ v : Word, After (.pstoreLockWrite (rpOk true (fo 0x100) v) v) s fun b => ∀ g, g < 16 →
        (bit v g = true → b.rf (fo 0x100) g g = 1 ∧ b.rf (fo 0x100) (16 + g) (16 + g) = 0)
        ∧ (bit v g = false → s.blk.rf (fo 0x100) g g = 1 →
            b.rf (fo 0x100) g g = b2n (s.blk.regionBusy g) ∧ b.rf (fo 0x100) (16 + g) (16 + g) = b2n (s.blk.regionBusy g))
        ∧ (bit v g = false → s.blk.rf (fo 0x100) g g = 0 → b.rf (fo 0x100) g g = 0))
    ∧ (∀ g, g < 16 → s.blk.rf (fo 0x100) (16 + g) (16 + g) = 1 → s.blk.regionBusy g = false →
        After (.lockClearTakesEffect g) s fun b => b.rf (fo 0x100) g g = 0 ∧ b.rf (fo 0x100) (16 + g) (16 + g) = 0
          ∧ ∀ w, w ≠ fo 0x100 → b.peek w = s.blk.peek w)

/-- Writes of the ROUTE page (R303, R306, R313, R320, R321): an entry of the set that is not current, a tick to switch at, a
multicast group, the Hamper's limits and a flush; each is refused where its rule says so. -/
def Obligations.RoutingRegisters : Prop :=
  ∀ (s : State) (v : Word), s.live →
    (let ix := s.blk.peek (rt 0x058)
     let ok := s.blk.fwd.other = 0 ∧ fld ix 15 15 ≠ s.blk.fwd.current ∧ fld v 7 6 ≠ 3
       ∧ (fld v 7 6 = 1 → fld v 2 0 ≤ 5 ∧ s.blk.axisLen (fld v 2 0 / 2) ≠ 1)
     After (.routeEntryWrite (rpOk true (rt 0x060) v) v) s fun b =>
       (ok → Tbl.get 0 b.fwd.routes (fld ix 15 0) = fld v 7 6 * 64 + fld v 2 0
          ∧ ∀ i, i ≠ fld ix 15 0 → Tbl.get 0 b.fwd.routes i = Tbl.get 0 s.blk.fwd.routes i)
       ∧ (¬ok → b.fwd = s.blk.fwd ∧ b.rf (regAt 0x50 0x018) 63 60 = 2)
       ∧ b.rf (rt 0x058) 14 0 = (if fld ix 63 63 = 1 then (fld ix 14 0 + 1) % 2 ^ 15 else fld ix 14 0))
    ∧ (s.blk.fwd.other = 0 → s.blk.time.tick + 2 ≤ fld v 47 0 →
        After (.switchTickWrite (rpOk true (rt 0x048) v) v) s fun b => b.fwd.other = 1 ∧ b.fwd.current = s.blk.fwd.current ∧ b.rf (rt 0x048) 47 0 = fld v 47 0)
    ∧ (s.blk.fwd.other ≠ 0 ∨ fld v 47 0 < s.blk.time.tick + 2 →
        After (.switchTickWrite (rpOk true (rt 0x048) v) v) s fun b => b.fwd = s.blk.fwd ∧ b.rf (regAt 0x50 0x018) 63 60 = 2)
    ∧ (let inside := bit v 63 = true → ∀ x, x < 3 → geLo v x < s.blk.axisLen x ∧ geHi v x < s.blk.axisLen x
       After (.routeGroupEntryWrite (rpOk true (rt 0x070) v) v) s fun b =>
         (inside → Tbl.get 0 b.fwd.groups (s.blk.rf (rt 0x068) 11 0) = v &&& word (mask 63 63 + mask 29 0)
           ∧ ∀ g, g ≠ s.blk.rf (rt 0x068) 11 0 → Tbl.get 0 b.fwd.groups g = Tbl.get 0 s.blk.fwd.groups g)
         ∧ (¬inside → b.fwd = s.blk.fwd ∧ b.rf (regAt 0x50 0x018) 63 60 = 2 ∧ b.rf (regAt 0x50 0x018) 57 49 = 14))
    ∧ (fld v 7 0 < fld v 15 8 → After (.hamperLimitsWrite (rpOk true (rt 0x080) v) v) s fun b => b.rf (rt 0x080) 15 0 = fld v 15 0)
    ∧ (fld v 15 8 ≤ fld v 7 0 → After (.hamperLimitsWrite (rpOk true (rt 0x080) v) v) s fun b =>
        b.rf (rt 0x080) 15 0 = s.blk.rf (rt 0x080) 15 0 ∧ b.fwd = s.blk.fwd ∧ b.rf (regAt 0x50 0x018) 63 60 = 2)
    ∧ (s.blk.rf (rt 0x088) 35 35 = 0 → After (.hamperFlushWrite (rpOk true (rt 0x088) v) v) s fun b => b.rf (rt 0x088) 35 35 = 1
        ∧ ∀ p ∈ b.fwd.pkts, ∀ x ∈ p.branches, x.st = .hamper ∨ x.st = .reading →
            bit v (8 + x.out) = false ∨ bit v (opClass (hOp p.hdr)) = false
              ∨ (bit v 63 = true ∧ (hSrc p.hdr ≠ fld v 62 48 ∨ hCtx p.hdr ≠ fld v 47 36)))
    ∧ (s.blk.rf (rt 0x088) 35 35 = 1 → After (.hamperFlushWrite (rpOk true (rt 0x088) v) v) s (fun b => b.fwd = s.blk.fwd ∧ b.rf (rt 0x088) 35 35 = 1
          ∧ b.rf (regAt 0x50 0x018) 63 60 = 2)
        ∧ After .hamperFlushDone s fun b => b.rf (rt 0x088) 35 35 = 0)

/-- An armed route set becomes current at its tick edge, and at no other moment (R37), and the old one drains; what the Hampers hold is
routed anew, in order, and stays, moves behind what another Hamper holds, or leaves (R318); two edges after the old set held nothing it is
free again (R306, R308). The order among several Hampers is the model's choice (log entry 20). A port's stall flag sets once a committed packet has been starved for LIMIT edges (R301). -/
def Obligations.RouteEvents : Prop :=
  ∀ s : State, s.carries →
    (s.blk.fwd.other = 1 → s.blk.rf (rt 0x048) 47 0 ≤ s.blk.time.tick → s.blk.onEdge = true →
      After .epochSwitch s (fun b => b.fwd.current = 1 - s.blk.fwd.current ∧ b.fwd.other = 2 ∧ b.fwd.routes = s.blk.fwd.routes)
      ∧ ∀ p ∈ s.blk.fwd.pkts, ∀ x, p.branches = [x] → x.st = .hamper → x.spilled = false → isMC (hOp p.hdr) = false →
        (s.blk.fwd.pkts.map (·.id)).Nodup → (∀ q ∈ s.blk.fwd.pkts, ∀ y ∈ q.branches, y.st = .waiting → s.blk.portUp y.out = true) →
        let out := s.blk.routeOf (1 - s.blk.fwd.current) (hDst p.hdr)
        let moved := fun (P : Branch → Prop) (b : Block) => ∃ q ∈ b.fwd.pkts, q.id = p.id ∧ ∃ y ∈ q.branches, y.out = out
          ∧ y.epoch = 1 - s.blk.fwd.current ∧ s.blk.hop p.input p.sub out = some y.subch ∧ P y
        (out = 7 → tracked (opClass (hOp p.hdr)) = true → After .epochSwitch s fun b => (∀ q ∈ b.fwd.pkts, q.id = p.id → q.branches = [])
            ∧ Sends s.blk b fun q => hOp q.hdr = 0x25 ∧ hDst q.hdr = hSrc p.hdr ∧ bit q.hdr 77 = false ∧ fld q.hdr 76 71 = hOp p.hdr)
        ∧ (out < 6 → s.blk.hop p.input p.sub out ≠ none →
          (s.blk.portUp out = true → After .epochSwitch s (moved fun y => y.st = .waiting))
          ∧ (s.blk.portUp out = false → After .epochSwitch s (moved fun y => y.st = .hamper
            ∧ (out = x.out → y.order = x.order) ∧ (out ≠ x.out → s.blk.fwd.nextOrder ≤ y.order)))))
    ∧ (s.blk.fwd.other ≠ 1 ∨ s.blk.time.tick < s.blk.rf (rt 0x048) 47 0 ∨ s.blk.onEdge = false →
      After .epochSwitch s fun b => b = s.blk)
    ∧ (s.blk.fwd.other = 2 → 2 ≤ s.blk.fwd.zeroEdges →
      After .epochRetire s fun b => b.fwd.other = 0 ∧ b.fwd.current = s.blk.fwd.current ∧ b.fwd.routes = s.blk.fwd.routes)
    ∧ (∀ port lane, port < 6 → s.blk.committed port lane ≠ none →
      max 1 (s.blk.rf (rt 0x0C0) 47 32) ≤ Tbl.get 0 s.blk.fwd.starved (16 * port + lane) →
      After (.routeStallFlag port lane) s fun b => b.rf (rt 0x0C0) port port = 1 ∧ b.rf (rt 0x0C0) 47 32 = s.blk.rf (rt 0x0C0) 47 32)

/-! ### Requests that arrive -/

/-- LOAD, STORE, STORE_PART and their _MC forms, checked under Table 2.7 with what the DARN checks find (R25, R26, R61, R65, R67,
R103, R108): one that passes is taken up and its host access recorded; a LOAD that fails is answered with RESP_STATUS; a store that
fails, or whose data cannot be used (R142), lands nothing, is counted in its flow and answered with its status. A request of any kind
that a newer epoch's has overtaken is discarded and counted (R311). -/
def Obligations.MemoryArrivals : Prop :=
  ∀ (s : State) (p : Packet) (f : Finds), s.carries →
    (s.blk.takes p →
      let id := s.blk.dest.nextId
      let n := hBytes p.hdr
      let taken := fun (c : Check) (k : JobKind) (len : Nat) (b : Block) => b.dest.nextId = id + 1
        ∧ (∃ d ∈ b.dest.pkts, d.id = id ∧ d.pkt = p ∧ d.haddr = c.haddr ∧ d.done = false)
        ∧ ∃ j ∈ b.host.jobs, j.id = s.blk.host.nextJob ∧ j.kind = k ∧ j.addr = c.haddr ∧ j.len = len
      (hOp p.hdr = 0x01 →
        let c := (s.blk.found p 0 f).memCheck p n 0 none
        (c.status = 0 → After (.load p f) s (taken c (.load id) n))
        ∧ (c.status ≠ 0 → After (.load p f) s fun b => b.dest.pkts = s.blk.dest.pkts ∧ b.host = s.blk.host
            ∧ Sends s.blk b fun q => hOp q.hdr = 0x21 ∧ hDst q.hdr = hSrc p.hdr ∧ fld q.hdr 69 66 = c.status
              ∧ fld q.hdr 65 62 = c.reason ∧ hTag q.hdr = hTag p.hdr))
      ∧ (∀ x ∈ [(Instr.store p f, 0x02), (.storePart p f, 0x03), (.storeMc p f, 0x0A), (.storePartMc p f, 0x0B)],
          hOp p.hdr = x.2 →
          let c := (s.blk.found p (hTag p.hdr) f).memCheck p n (hTag p.hdr) none
          let cls := opClass (hOp p.hdr)
          (c.status = 0 → p.bad = false → storeBytes p ≠ [] → After x.1 s (taken c (.land id) (storeBytes p).length))
          ∧ (c.status ≠ 0 ∨ p.bad = true → s.blk.flowEmpty (hSrc p.hdr) cls (mcKey p.hdr) →
              (s.blk.dflow (hSrc p.hdr) cls (mcKey p.hdr)).silent = false → After x.1 s fun b => b.host = s.blk.host
              ∧ (b.dflow (hSrc p.hdr) cls (mcKey p.hdr)).count = ((s.blk.dflow (hSrc p.hdr) cls (mcKey p.hdr)).count + 1) % 2 ^ 24
              ∧ Sends s.blk b fun q => hOp q.hdr = (if isMC x.2 then 0x23 else 0x22) ∧ hDst q.hdr = hSrc p.hdr ∧ hRclass q.hdr = cls
                ∧ fld q.hdr 63 60 = (if c.status ≠ 0 then c.status else stPOISON))))
    ∧ (¬s.blk.epochOk p → ∀ x ∈ requests p f, hOp p.hdr = x.2 → After x.1 s fun b =>
        b.peek (rt 0x0E0) = satAdd (s.blk.peek (rt 0x0E0)) 1 ∧ (∀ w, w ≠ rt 0x0E0 → b.peek w = s.blk.peek w)
        ∧ b.dest.pkts = s.blk.dest.pkts ∧ b.host = s.blk.host ∧ b.fwd = s.blk.fwd)

/-- REDUCE and REDUCE_MC (R28, R147, R181, R190, R191, R232, R233): one that passes its checks, with what the DARN checks find, and
falls in no pass window holds its range and reads its local data first, or enters the dispatch order at once where its profile
converts; it waits while its range is held. One in a pass window is staged, or waits for room and is counted as a stall. One that fails
is answered with its status and stages nothing. That a wait behind an earlier one that waits counts as a stall is log entry 50's. -/
def Obligations.ReduceArrivals : Prop :=
  ∀ (s : State) (p : Packet) (f : Finds), s.carries → s.blk.takes p →
    let k := fld p.hdr 20 17
    let prof := profileOf (s.blk.peek (mg 0 (0x800 + 8 * k))).toNat (s.blk.peek (mg 0 (0x880 + 8 * k))).toNat
    let span := reduceSpan prof (slotsBytes p.data)
    let c := (s.blk.found p (hTag p.hdr) f).memCheck p span (hTag p.hdr) (some prof)
    let id := s.blk.dest.nextId
    let cls := opClass (hOp p.hdr)
    ∀ x ∈ [(Instr.reduce p f, 0x04), (.reduceMc p f, 0x0C)], hOp p.hdr = x.2 →
      let win := if x.2 = 0x0C then none else s.blk.windowFor (hOff p.hdr) span (fld (s.blk.seg (hOff p.hdr / 2 ^ 21)) 56 45)
      let earlier := ∃ d ∈ s.blk.dest.pkts, d.window ≠ none
      (c.status = 0 → p.bad = false →
        (win = none →
          (s.blk.mustWait c.haddr span = false → s.blk.mangle.engines.length = 12 → After x.1 s fun b =>
            (∃ d ∈ b.dest.pkts, d.id = id ∧ d.pkt = p ∧ d.span = span ∧ d.haddr = c.haddr ∧ d.started = true ∧ d.done = false)
            ∧ (prof.op ≠ 0 → ∃ j ∈ b.host.jobs, j.kind = .reduceRead id ∧ j.addr = c.haddr ∧ j.len = span)
            ∧ (prof.op = 0 → ∃ u : MUnit, u.kind = .reduce id ∧ u.w = slotsBytes p.data
                ∧ (u ∈ b.mangle.queue ∨ ∃ e ∈ b.mangle.engines, ∃ h, e.held = some h ∧ h.unit = u)))
          ∧ (s.blk.mustWait c.haddr span = true → After x.1 s fun b => (c.haddr, span, Waiter.pkt id) ∈ b.dest.waiters
            ∧ ∃ d ∈ b.dest.pkts, d.id = id ∧ d.pkt = p ∧ d.started = false ∧ d.done = false))
        ∧ (∀ w, win = some w →
          (∀ sp, ¬earlier → s.blk.stagePlace (slotsBytes p.data).length = some sp → After x.1 s fun b =>
            ∃ y ∈ b.fold.staged, y.stream = w ∧ y.off = hOff p.hdr ∧ y.data = slotsBytes p.data ∧ y.id = s.blk.fold.nextStaged
              ∧ y.spilled = sp)
          ∧ (earlier ∨ s.blk.stagePlace (slotsBytes p.data).length = none → After x.1 s fun b =>
            b.peek (fo 0x120) = satAdd (s.blk.peek (fo 0x120)) 1 ∧ b.fold.staged = s.blk.fold.staged
            ∧ ∃ d ∈ b.dest.pkts, d.id = id ∧ d.pkt = p ∧ d.window = some w)))
      ∧ (c.status ≠ 0 ∨ p.bad = true → s.blk.flowEmpty (hSrc p.hdr) cls (mcKey p.hdr) →
          (s.blk.dflow (hSrc p.hdr) cls (mcKey p.hdr)).silent = false → After x.1 s fun b => b.fold.staged = s.blk.fold.staged
          ∧ Sends s.blk b fun q => hOp q.hdr = (if isMC x.2 then 0x23 else 0x22) ∧ hDst q.hdr = hSrc p.hdr ∧ hRclass q.hdr = cls
            ∧ fld q.hdr 63 60 = (if c.status ≠ 0 then c.status else stPOISON))

/-- Counter requests and FSYNC (R65, R69, R103, R110, R123, R152, R159): a SIGNAL adds its word to the counter, and is dropped and
counted while the counter is poisoned; CTR_READ answers with the counter's value, or POISON; either that fails changes no counter, and
CTR_READ then answers with the status; FSYNC is answered with the flow's count; SIGNAL and FSYNC in a flow with nothing else waiting. -/
def Obligations.CounterArrivals : Prop :=
  ∀ (s : State) (p : Packet) (f : Finds), s.carries → s.blk.takes p →
    let n := hCtr p.hdr
    let b0 := s.blk.found p n f
    let answers := fun (op st : Nat) (b : Block) (P : Packet → Prop) => Sends s.blk b fun q => hOp q.hdr = op ∧ hDst q.hdr = hSrc p.hdr
      ∧ hTag q.hdr = hTag p.hdr ∧ fld q.hdr 69 66 = st ∧ P q
    (hOp p.hdr = 0x05 →
      ((b0.ctrReqCheck p 59).status = 0 → p.bad = false →
        (b0.ctrBad.contains n = false → s.blk.flowEmpty (hSrc p.hdr) 5 none → After (.signal p f) s fun b =>
          Tbl.get 0 b.ctrs n = Tbl.get 0 s.blk.ctrs n + word (ofBytes (slice (slotsBytes p.data) 0 8))
          ∧ (∀ k, k ≠ n → Tbl.get 0 b.ctrs k = Tbl.get 0 s.blk.ctrs k)
          ∧ (b.dflow (hSrc p.hdr) 5 none).count = ((s.blk.dflow (hSrc p.hdr) 5 none).count + 1) % 2 ^ 24)
        ∧ (b0.ctrBad.contains n = true → s.blk.flowEmpty (hSrc p.hdr) 5 none → After (.signal p f) s fun b =>
          b.ctrs = s.blk.ctrs ∧ b.peek (ct 0x108) = satAdd (s.blk.peek (ct 0x108)) 1))
      ∧ ((b0.ctrReqCheck p 59).status ≠ 0 ∨ p.bad = true → s.blk.flowEmpty (hSrc p.hdr) 5 none →
          (s.blk.dflow (hSrc p.hdr) 5 none).silent = false → After (.signal p f) s fun b => b.ctrs = s.blk.ctrs
          ∧ Sends s.blk b fun q => hOp q.hdr = 0x22 ∧ hDst q.hdr = hSrc p.hdr ∧ hRclass q.hdr = 5 ∧ fld q.hdr 63 60
              = (if (b0.ctrReqCheck p 59).status ≠ 0 then (b0.ctrReqCheck p 59).status else stPOISON)))
    ∧ (hOp p.hdr = 0x06 →
        ((b0.ctrReqCheck p 60).status = 0 → b0.ctrBad.contains n = false → After (.ctrRead p f) s fun b => b.ctrs = s.blk.ctrs
          ∧ answers 0x20 0 b fun q => q.data = bytesSlots (toBytes 16 (Tbl.get 0 s.blk.ctrs n).toNat))
        ∧ ((b0.ctrReqCheck p 60).status = 0 → b0.ctrBad.contains n = true → After (.ctrRead p f) s fun b => b.ctrs = s.blk.ctrs
          ∧ answers 0x21 stPOISON b fun _ => True)
        ∧ ((b0.ctrReqCheck p 60).status ≠ 0 → After (.ctrRead p f) s fun b => b.ctrs = s.blk.ctrs
          ∧ answers 0x21 (b0.ctrReqCheck p 60).status b fun _ => True))
    ∧ (∀ op, 7 ≤ op → op ≤ 9 → hOp p.hdr = op → s.blk.flowEmpty (hSrc p.hdr) (op - 4) none → After (.fsync p) s fun b =>
        Sends s.blk b fun q => hOp q.hdr = 0x24 ∧ hDst q.hdr = hSrc p.hdr ∧ hTag q.hdr = hTag p.hdr
          ∧ hRclass q.hdr = op - 4 ∧ hCount q.hdr = ((s.blk.dflow (hSrc p.hdr) (op - 4) none).count + 1) % 2 ^ 24)

/-- Atomics (R65, R105, R140, R147): one that passes its checks is taken up and issued as one host atomic of 8 or 16 bytes, whose AOP and
operands are the request's (Tables 3.10, 7.2), or waits while its range is held; one that fails, or whose operands cannot be used, is
answered with its status; the old value that the host answers goes back in a RESP_DATA. That a CAS16 whose offset is no multiple of 16 is
answered ABSENT, reason 0x1, once all of Table 2.7 has passed is the model's choice (log entry 63). -/
def Obligations.AtomicArrivals : Prop :=
  (∀ (s : State) (ch tag : Nat) (t : Txn) (j : Job) (d : DPkt) (words : List HostWord), s.carries → s.blk.txn? ch tag = some t →
    t.dead = false → t.kind = .at8 ∨ t.kind = .at16 → s.blk.host.jobs.find? (fun x => x.id == t.job) = some j →
    j.left = 1 → j.bad = false → j.parts = [] → t.part = 0 → j.kind = .atomic d.id → s.blk.pkt? d.id = some d →
    (∀ i x, words[i]? = some x → x.darn = .good ∧ x.poison = false ∧ x.tag.toNat = dataTag tag 0 i) →
    let n := if t.kind = .at16 then 16 else 8
    After (.adata ch 0 { tag } .good words) s fun b => b.pkt? d.id = none ∧ Sends s.blk b fun q => hOp q.hdr = 0x20
      ∧ hDst q.hdr = d.src % 2 ^ 15 ∧ hTag q.hdr = hTag d.pkt.hdr ∧ fld q.hdr 69 66 = 0
      ∧ q.data = bytesSlots ((beatBytes words).take n ++ List.replicate (16 - n) 0))
  ∧ ∀ (s : State) (p : Packet) (f : Finds), s.carries → s.blk.takes p →
    let c := (s.blk.found p 0 f).memCheck p (hBytes p.hdr) 0 none
    let id := s.blk.dest.nextId
    let odd := hOp p.hdr = 0x1A ∧ hOff p.hdr % 16 ≠ 0
    let answers := fun (st reason : Nat) (b : Block) => b.dest.pkts = s.blk.dest.pkts ∧ b.host = s.blk.host
      ∧ Sends s.blk b fun q => hOp q.hdr = 0x21 ∧ hDst q.hdr = hSrc p.hdr ∧ hTag q.hdr = hTag p.hdr ∧ fld q.hdr 69 66 = st
        ∧ fld q.hdr 65 62 = reason
    ∀ x ∈ [(Instr.fAdd p f, 0x10), (.swap p f, 0x11), (.cas8 p f, 0x12), (.fAnd p f, 0x13), (.fOr p f, 0x14), (.fXor p f, 0x15),
        (.fMaxS p f, 0x16), (.fMinS p f, 0x17), (.fMaxU p f, 0x18), (.fMinU p f, 0x19), (.cas16 p f, 0x1A)],
      hOp p.hdr = x.2 →
      (c.status = 0 → ¬odd → p.bad = false →
        (s.blk.mustWait c.haddr (hBytes p.hdr) = false → After x.1 s fun b => b.dest.nextId = id + 1
          ∧ (∃ d ∈ b.dest.pkts, d.id = id ∧ d.pkt = p ∧ d.haddr = c.haddr)
          ∧ (∃ j ∈ b.host.jobs, j.id = s.blk.host.nextJob ∧ j.kind = .atomic id ∧ j.addr = c.haddr
              ∧ j.len = if x.2 = 0x1A then 16 else 8)
          ∧ ∃ t ∈ b.host.out ++ b.host.waiting, t.job = s.blk.host.nextJob ∧ t.addr = c.haddr ∧ t.wdata = slotsBytes p.data
              ∧ (x.2 = 0x1A → t.kind = .at16 ∧ t.aop = 0) ∧ (x.2 ≠ 0x1A → t.kind = .at8 ∧ t.aop = x.2 - 0x10))
        ∧ (s.blk.mustWait c.haddr (hBytes p.hdr) = true → After x.1 s fun b => b.host = s.blk.host
          ∧ (c.haddr, hBytes p.hdr, Waiter.pkt id) ∈ b.dest.waiters ∧ ∃ d ∈ b.dest.pkts, d.id = id ∧ d.pkt = p))
      ∧ (c.status ≠ 0 → After x.1 s (answers c.status c.reason))
      ∧ (c.status = 0 → odd → After x.1 s (answers stABSENT 1))
      ∧ (c.status = 0 → ¬odd → p.bad = true → After x.1 s (answers stPOISON 0))

/-- Register requests (R62, R532) and reserved opcodes (R100): REG_READ is answered with the register's word (the count of small
requests, which counts this one, and the drain count, which this one leaves, apart), REG_WRITE replaces the writable fields of a register
that has no rule of its own, as a privileged writer does, and is answered, but changes nothing on a page that only the register port and
Mildom write, where it is counted (R431, R476, R529), and both, like a reserved request opcode, fail with the status their check gives; a
reserved TC2 opcode is counted late, a reserved TC0 or TC6 one on page 0x7E. That such a page counts the write is log entry 23's. -/
def Obligations.RegisterRequests : Prop :=
  ∀ (s : State) (p : Packet) (f : Darn), s.carries → s.blk.takes p →
    let w := fld p.hdr 61 46
    let v := word (ofBytes (slice (slotsBytes p.data) 0 8))
    let read := Instr.regReadPacket { what := p, d := f }
    let write := Instr.regWritePacket { what := p, d := f }
    let ok := hDst p.hdr = s.blk.chipId ∧ bit p.hdr 45 = true
    let answers := fun (op st : Nat) (b : Block) => Sends s.blk b fun q => hOp q.hdr = op ∧ hDst q.hdr = hSrc p.hdr
      ∧ hTag q.hdr = hTag p.hdr ∧ fld q.hdr 69 66 = st
    (hOp p.hdr = 0x0D → ok → w ≠ cn 0x090 → w ≠ rt 0x050 → After read s fun b =>
        (w ∈ [sg 0x088, wSeal, fo 0x040, lk 2 0x058] → b.regs = (s.blk.bump (cn 0x090)).regs)
        ∧ Sends s.blk b fun q => hOp q.hdr = 0x20 ∧ hDst q.hdr = hSrc p.hdr ∧ hTag q.hdr = hTag p.hdr
          ∧ q.data = bytesSlots (toBytes 16 (s.blk.regRead w).toNat))
    ∧ (hOp p.hdr = 0x0D → ¬ok → After read s (answers 0x21 (if hDst p.hdr = s.blk.chipId then stDENIED else stABSENT)))
    ∧ (hOp p.hdr = 0x0E → ¬ok → After write s (answers 0x21 (if hDst p.hdr = s.blk.chipId then stDENIED else stABSENT)))
    ∧ (hOp p.hdr = 0x0E → ok → p.bad = false → ∀ d, plainReg w d → d.cnt = false → guarded w = false → After write s fun b =>
        b.peek w = ((s.blk.peek w &&& ~~~(word d.rw)) ||| (v &&& word d.rw)) &&& ~~~(v &&& word d.w1c) ∧ answers 0x21 0 b)
    ∧ (hOp p.hdr = 0x0E → ok → p.bad = false → isReg w = true → guarded w = true → After write s fun b =>
        b.rf (regAt (w / 512) 0x018) 63 60 = 1 ∧ b.rf (regAt (w / 512) 0x018) 57 49 = w % 512
          ∧ (∀ x, x ≠ cn 0x090 → x ≠ regAt (w / 512) 0x018 → b.peek x = s.blk.peek x) ∧ b.boot = s.blk.boot ∧ answers 0x21 0 b)
    ∧ (hOp p.hdr = 0x0E → ok → p.bad = true → After write s fun b => b.segmap = s.blk.segmap
        ∧ (∀ v, v ≠ cn 0x090 → b.peek v = s.blk.peek v) ∧ answers 0x21 stPOISON b)
    ∧ (hOp p.hdr = 0x0F ∨ (0x1B ≤ hOp p.hdr ∧ hOp p.hdr ≤ 0x1F) →
        After (.reservedOpcodePacket p) s fun b => b.dest.pkts = s.blk.dest.pkts ∧ answers 0x21 stABSENT b)
    ∧ (0x26 ≤ hOp p.hdr → hOp p.hdr ≤ 0x2F → After (.reservedOpcodePacket p) s fun b =>
        b.peek (fo 0x090) = satAdd (s.blk.peek (fo 0x090)) 1 ∧ b.req = s.blk.req)
    ∧ (0x30 ≤ hOp p.hdr → hOp p.hdr ≤ 0x3E → hOp p.hdr ∉ [0x31, 0x32, 0x38, 0x39] → After (.reservedOpcodePacket p) s fun b =>
        b.rf (regAt 0x7E 0x018) 63 60 = 5 ∧ b.boot = s.blk.boot)

/-- TC2 packets at the requester (R108, R112 to R115, R123, R124, R128): a response to a TAG adds its bytes to its command or fails it,
and RESP_DATA lands in the command's local window, each piece at the host address and under the counter that its landing check found; a
receipt covers its flow up to its count, one beyond what was issued is late; a RECEIPT_MC adds to its group's count, one of another
GEN or of no open command is late; SYNC_ACK mends a broken flow, one that answers no FSYNC of it is late; TORN_NOTE breaks a flow,
closes a TAG, or is noted by its group's command; a response to no TAG is late. The bytes of an atomic without a result are the model's
reading (log entry 18), and that a receipt past what was issued and a SYNC_ACK without an FSYNC are late is its choice (log entry 73). -/
def Obligations.RequesterPackets : Prop :=
  ∀ (s : State) (p : Packet), s.carries → s.blk.epochOk p → s.blk.rst.down = false →
    let src := hSrc p.hdr
    let cls := hRclass p.hdr
    let late := fun (b : Block) => b.peek (fo 0x090) = satAdd (s.blk.peek (fo 0x090)) 1
    (∀ e c, s.blk.req.tags.find? (fun e => e.tag == hTag p.hdr) = some e → s.blk.cmd? e.cmd = some c →
      ∀ x ∈ [(Instr.respData p, 0x20), (.respStatus p, 0x21)], hOp p.hdr = x.2 →
      (p.bad = false → fld p.hdr 69 66 = 0 → After x.1 s fun b => ∃ y ∈ b.req.cmds, y.id = c.id
        ∧ c.bytesOk + (if e.want ≠ 0 then e.want else if e.opcode = 0x1A then 16 else 8) ≤ y.bytesOk)
      ∧ (x.2 = 0x20 → p.bad = false → fld p.hdr 69 66 = 0 → e.want ≠ 0 → After x.1 s fun b =>
          (∀ y ∈ e.land, ∃ j ∈ b.host.jobs, j.kind = .localLand c.id e.lctr y.2.1 e.k ∧ j.addr = y.1 ∧ j.len = y.2.1
            ∧ s.blk.host.nextJob ≤ j.id)
          ∧ (∀ a n unc, e.land = [(a, n, unc)] → s.blk.mustWait a n = false → 0 < n → a % 4096 + n ≤ 4096 →
              ∃ t ∈ b.host.out ++ b.host.waiting, t.job = s.blk.host.nextJob ∧ t.kind = .wr ∧ t.wstart = a
                ∧ t.wdata = slice (slice (slotsBytes p.data) e.skip e.want) 0 n))
      ∧ (p.bad = true ∨ fld p.hdr 69 66 ≠ 0 → After x.1 s fun b => ∃ y ∈ b.req.cmds, y.id = c.id ∧ c.failCount < y.failCount
        ∧ rank (if p.bad then stPOISON else fld p.hdr 69 66) ≤ rank y.status))
    ∧ (∀ x ∈ [(Instr.respData p, 0x20), (.respStatus p, 0x21)], hOp p.hdr = x.2 →
        s.blk.req.tags.find? (fun e => e.tag == hTag p.hdr) = none → After x.1 s late)
    ∧ (hOp p.hdr = 0x22 →
        let f := s.blk.flow src cls
        let k := subMod 24 (hCount p.hdr) f.covered
        (f.fresh = false → k ≤ subMod 24 f.issued f.covered → After (.receipt p) s fun b => (b.flow src cls).covered = hCount p.hdr)
        ∧ (f.fresh = true ∨ subMod 24 f.issued f.covered < k → After (.receipt p) s fun b => late b ∧ (b.flow src cls).covered = f.covered))
    ∧ (hOp p.hdr = 0x23 →
        let key := fld p.hdr 52 41 + 4096 * fld p.hdr 55 55
        let g := s.blk.gflow key cls
        (∀ id c, g.cmd = some id → g.gen = fld p.hdr 54 53 → s.blk.openCmd id = some c →
          After (.receiptMc p) s fun b => (b.gflow key cls).count = g.count + hCount p.hdr)
        ∧ ((g.cmd = none ∨ g.gen ≠ fld p.hdr 54 53 ∨ ∃ id, g.cmd = some id ∧ s.blk.openCmd id = none) → After (.receiptMc p) s late))
    ∧ (hOp p.hdr = 0x24 →
        (∀ br x, (s.blk.flow src cls).broken = some br → br.fsyncs.find? (fun x => x.1 == hTag p.hdr) = some x →
          After (.syncAck p) s fun b => (b.flow src cls).broken = none ∧ (b.flow src cls).covered = hCount p.hdr)
        ∧ ((∀ br, (s.blk.flow src cls).broken = some br → br.fsyncs.find? (fun x => x.1 == hTag p.hdr) = none) →
          After (.syncAck p) s late))
    ∧ (hOp p.hdr = 0x25 →
        let op := fld p.hdr 76 71
        let peer := fld p.hdr 70 56
        let st := if bit p.hdr 77 then stFLUSHED else stTORN
        (op ∈ [0x02, 0x03, 0x04, 0x05] → (∃ q ∈ s.blk.req.posted, q.peer = peer ∧ q.cls = opClass op) →
          After (.tornNote p) s fun b => (b.flow peer (opClass op)).broken ≠ none)
        ∧ (nonPosted op = true → ∀ e c, s.blk.req.tags.find? (fun e => e.tag == hTag p.hdr) = some e → s.blk.openCmd e.cmd = some c →
          After (.tornNote p) s fun b => (∃ h ∈ b.req.held, h.tag = e.tag)
            ∧ ∃ y ∈ b.req.cmds, y.id = c.id ∧ c.failCount < y.failCount ∧ rank st ≤ rank y.status)
        ∧ (isMC op = true → ∀ id c,
          let g := s.blk.gflow (groupKey peer) (opClass op)
          g.cmd = some id → s.blk.openCmd id = some c → g.gen = peer / 4096 % 4 →
            After (.tornNote p) s fun b => (b.gflow (groupKey peer) (opClass op)).torn ≠ 0))

/-! ### Descriptors and commands -/

/-- The descriptor that a stream may admit is admitted by its row (R90, R95, R98): a completion-ring slot is reserved, and it
becomes the next command with its stream's context, already failed and with nothing to issue where admission refuses it. That any
descriptor row admits an odd descriptor is the model's choice (log entry 17), and so is which of several broken rules decides (log
entry 64); what a GET of a counter is refused with is its reading (log entry 18). -/
def Obligations.DescriptorsAdmitted : Prop :=
  ∀ (s : State) (st : Nat) (f : Fetched) (d : List Word), s.carries → s.blk.admissible st = some f → f.desc = some d →
    ∀ x ∈ [(Instr.nop st, 0x00), (Instr.copy st, 0x01), (Instr.put st, 0x02), (Instr.get st, 0x03), (Instr.atomic st, 0x04),
        (Instr.descReduce st, 0x10), (Instr.descCas16 st, 0x11), (Instr.descSignal st, 0x12), (Instr.fold st, 0x13),
        (Instr.wring st, 0x14), (Instr.descTick st, 0x15)],
      dOp d = x.2 → After x.1 s fun b => b.req.nextCmd = s.blk.req.nextCmd + 1
        ∧ (b.stream st).reserved = (s.blk.stream st).reserved + 1 ∧ (b.stream st).fetched = (s.blk.stream st).fetched.drop 1
        ∧ ∃ c ∈ b.req.cmds, c.id = s.blk.req.nextCmd ∧ c.stream = st ∧ c.ctx = s.blk.streamCtx st ∧ c.desc = d
          ∧ c.ofFold = false ∧ rank (s.blk.admission st d).1 ≤ rank c.status
          ∧ ((s.blk.admission st d).1 ≠ 0 → c.plans = [])

/-- With no other command in the engine, the first packet of an admitted descriptor that reads nothing of this chip's window leaves
at once (R92, R99, R104): its opcode, source chip, context and data are the descriptor's. -/
def Obligations.DescriptorsIssue : Prop :=
  ∀ (s : State) (st : Nat) (f : Fetched) (d : List Word) (p : Plan) (v : List Byte),
    s.carries → s.blk.admissible st = some f → f.desc = some d → s.blk.req.cmds = [] → (s.blk.admission st d).1 = 0 →
    (plansOf d).head? = some p → p.touches = false → p.data = some v →
    (∀ c : Cmd, c.id = s.blk.req.nextCmd → s.blk.blocked c p = false) →
    ∀ x ∈ [(Instr.put st, 0x02), (Instr.atomic st, 0x04), (Instr.descCas16 st, 0x11), (Instr.descSignal st, 0x12)],
      dOp d = x.2 → After x.1 s fun b => Sends s.blk b fun q =>
        hOp q.hdr = p.opcode ∧ hSrc q.hdr = s.blk.chipId ∧ hCtx q.hdr = s.blk.streamCtx st ∧ q.data = bytesSlots v

/-- A command ends (R95, R114, R115, R118, R123, R127): a covered one completes and writes its record, a timed-out one meets TIMEOUT
and its TAGs are held back, the edge of a DESC_TICK lets its stream go on, a broken flow's FSYNC is sent again, or kept back
while its class may not leave (R309), and a TAG held back becomes free. The guards of FSYNC_RETRY and TAG_HOLD_END are the model's
reading (log entry 15), and so are the FSYNC's own TAG (log entry 61) and the record of a command of an earlier enable, which goes into
the ring as it is now, under the new count (log entry 64). -/
def Obligations.CommandsEnd : Prop :=
  ∀ s : State, s.carries →
    (∀ id c, s.blk.cmd? id = some c → c.ofFold = false → s.blk.covered c = true →
      After (.commandCompletion id) s fun b => (∀ x ∈ b.req.cmds, x.id ≠ id)
        ∧ ((s.blk.stream c.stream).entry ≠ none → (dQuiet c.desc && c.status == 0 && !c.desc.isEmpty) = true →
          (b.stream c.stream).written = (s.blk.stream c.stream).written)
        ∧ ((s.blk.stream c.stream).entry ≠ none → (dQuiet c.desc && c.status == 0 && !c.desc.isEmpty) = false →
          (b.stream c.stream).written = ((s.blk.stream c.stream).written + 1) % 2 ^ 16
          ∧ ∃ j ∈ b.host.jobs, j.kind = .record ∧ j.len = 32
            ∧ j.addr = fld (s.blk.entryWord c.stream 1) 51 12 * 4096
                + 32 * ((s.blk.stream c.stream).written % 2 ^ fld (s.blk.entryWord c.stream 1) 3 0)))
    ∧ (∀ id c, s.blk.cmd? id = some c → s.blk.timedOut c = true → After (.commandTimeout id) s fun b =>
        (∃ x ∈ b.req.cmds, x.id = id ∧ x.ended = true ∧ x.plans = [] ∧ rank stTIMEOUT ≤ rank x.status)
        ∧ ∀ e ∈ s.blk.req.tags, e.cmd = id → ∃ h ∈ b.req.held, h.tag = e.tag)
    ∧ (∀ st c t, s.blk.turn st = some c → c.tickHold = some t → c.timer ≠ none →
        (t ≤ s.blk.time.tick → After (.tickHoldEnd st) s fun b => ∃ x ∈ b.req.cmds, x.id = c.id ∧ x.tickHold = none)
        ∧ (s.blk.time.tick < t → After (.tickHoldEnd st) s fun b => b = s.blk))
    ∧ (∀ peer cls br, (s.blk.flow peer cls).broken = some br → br.sent ≠ 0 → s.blk.issueHeld = false →
        br.sentAt + 16000000 * s.blk.rf (fo 0x068) 15 0 ≤ s.blk.time.now →
        let f := s.blk.flow peer cls
        let pos := (f.issued + 1) % 2 ^ 24
        let tag := f.syncs % 2 ^ 16
        let go := bitN s.blk.fwd.switched cls
        After (.fsyncRetry peer cls) s fun b =>
          (b.flow peer cls).issued = pos ∧ (b.flow peer cls).syncs = f.syncs + 1
          ∧ (b.flow peer cls).broken = some { br with fsyncs := br.fsyncs ++ [(tag, pos, if go then s.blk.injectEpoch cls else 2)],
                                                      sent := br.sent + 1, sentAt := s.blk.time.now }
          ∧ (3 ≤ cls → cls ≤ 5 → peer < 2 ^ 15 → go = true → Sends s.blk b fun q =>
              hOp q.hdr = 4 + cls ∧ hDst q.hdr = peer ∧ hSrc q.hdr = s.blk.chipId ∧ hTag q.hdr = tag)
          ∧ (go = false → b.fwd.inject = s.blk.fwd.inject ∧ b.fwd.held.length = s.blk.fwd.held.length + 1))
    ∧ ∀ tag, After (.tagHoldEnd tag) s fun b =>
        b.req.held = s.blk.req.held.filter fun h => h.tag != tag || decide (s.blk.time.now < h.until_)

/-! ### Forwarding and the tick -/

/-- FORWARD_PACKET (R292, R293, R295, R297, R304, R305, R316): a packet whose route leads to a port that is up waits for that port, on
the sub-channel of its hop; one for this chip is delivered once whole; a request with no route, or whose hop crosses a wrap link twice,
is dropped and its source told, another packet with no route, or for a port that is down, is discarded and counted; the oldest injected
packet of a class enters the core; the header of the other sub-channel that came first is waited for. PACKET_COMMIT (R32, R294, R295):
with a header and a data credit the next waiting packet of a class is committed to its output, and its input is the last that this class
took from; without them, with the lane taken, or where the next packet goes on the other sub-channel, nothing happens. A tracked packet for a
port that is down enters its Hamper behind those already there, on the block or in the spill area, or waits at its input for room (R316,
R317, R319); its entry may start a flush, of the source and context that hold the most bytes first, answered with FLUSHED, down to
RESUME_AT (R320); when the port comes up, what its Hamper holds leaves first, in order (R317). A multicast packet goes out on the branches
of its tree, and to this chip where it is a member (R314). -/
def Obligations.PacketsForwarded : Prop :=
  (∀ (s : State) (input lane now : Nat), s.carries →
    let found := s.blk.fwd.pkts.find? fun p => p.input == input && !p.routed && opClass (hOp p.hdr) == lane / 2
    (∀ p, input < 6 → found = some p → p.sub ≠ lane % 2 → After (.forwardPacket input lane now) s fun b => b = s.blk.clock now)
    ∧ (∀ p, input < 6 → found = some p → p.sub = lane % 2 → s.blk.fpkt? p.id = some p → treeOp (hOp p.hdr) = false →
      (b2n (bit p.hdr 120) = s.blk.fwd.current ∨ s.blk.fwd.other ≠ 0) →
      let out := s.blk.routeOf (b2n (bit p.hdr 120)) (hDst p.hdr)
      let told := fun (b : Block) => Sends s.blk b fun q =>
        hOp q.hdr = 0x25 ∧ hDst q.hdr = hSrc p.hdr ∧ fld q.hdr 76 71 = hOp p.hdr ∧ fld q.hdr 70 56 = hDst p.hdr ∧ bit q.hdr 77 = false
      (∀ sub, out < 6 → s.blk.portUp out = true → s.blk.hop p.input p.sub out = some sub →
        After (.forwardPacket input lane now) s fun b => ∃ q ∈ b.fwd.pkts, q.id = p.id ∧ q.hdr = p.hdr ∧ q.data = p.data
          ∧ q.routed = true ∧ q.branches = p.branches ++ [{ out, subch := sub, epoch := b2n (bit p.hdr 120), members := 0 }])
      ∧ (out < 6 → s.blk.hop p.input p.sub out = none → After (.forwardPacket input lane now) s fun b =>
          b.peek (rt 0x0E8) = satAdd (s.blk.peek (rt 0x0E8)) 1 ∧ (tracked (opClass (hOp p.hdr)) = true → told b))
      ∧ (∀ sub, out < 6 → s.blk.hop p.input p.sub out = some sub → s.blk.portUp out = false → tracked (opClass (hOp p.hdr)) = false →
          After (.forwardPacket input lane now) s fun b => b.peek (rt 0x0D8) = satAdd (s.blk.peek (rt 0x0D8)) 1)
      ∧ (out = 6 → p.whole = true → p.killed = false → After (.forwardPacket input lane now) s fun b =>
          ∃ more, b.dest.inbox = s.blk.dest.inbox ++ more ∧ ({ hdr := p.hdr, data := p.data } : Packet) ∈ more)
      ∧ (out = 7 → tracked (opClass (hOp p.hdr)) = true → After (.forwardPacket input lane now) s told)
      ∧ (out = 7 → tracked (opClass (hOp p.hdr)) = false → After (.forwardPacket input lane now) s fun b =>
          b.peek (rt 0x0D8) = satAdd (s.blk.peek (rt 0x0D8)) 1))
    ∧ (∀ q sub, 6 ≤ input → s.blk.fwd.inject.find? (fun p => opClass (hOp p.hdr) == lane / 2) = some q →
        s.blk.fpkt? s.blk.fwd.nextId = none → treeOp (hOp q.hdr) = false → b2n (bit q.hdr 120) = s.blk.fwd.current →
        let out := s.blk.routeOf s.blk.fwd.current (hDst q.hdr)
        out < 6 → s.blk.portUp out = true → s.blk.hop 6 0 out = some sub →
        After (.forwardPacket input lane now) s fun b => (∃ more, b.fwd.inject = s.blk.fwd.inject.erase q ++ more)
          ∧ ∃ p ∈ b.fwd.pkts, p.id = s.blk.fwd.nextId ∧ p.hdr = q.hdr ∧ p.data = q.data ∧ p.routed = true
            ∧ p.branches = [{ out, subch := sub, epoch := s.blk.fwd.current, members := 0 }]))
  ∧ (∀ (s : State) (port lane : Nat), s.carries →
    let q := s.blk.port port
    let ready := q.st = 5 ∧ bit (s.blk.peek (lk port 0x010)) 1 = false ∧ s.blk.committed port lane = none
      ∧ q.credit (4 * (lane / 2) + 2 * (lane % 2)) = true ∧ q.credit (4 * (lane / 2) + 2 * (lane % 2) + 1) = true
    (∀ p x, ready → s.blk.nextOf port (lane / 2) = some (p, x) → x.subch = lane % 2 → After (.packetCommit port lane) s fun b =>
      ((b.committed port lane).map fun y => y.1.id) = some p.id
      ∧ Tbl.get 6 b.fwd.rr (8 * port + lane / 2) = p.input ∧ b.ports = s.blk.ports ∧ b.regs = s.blk.regs ∧ b.dest = s.blk.dest)
    ∧ (¬ready ∨ (∀ p x, s.blk.nextOf port (lane / 2) = some (p, x) → x.subch ≠ lane % 2) →
        After (.packetCommit port lane) s fun b => b = s.blk)
    ∧ (let held := fun (l : Nat) (p : FPkt) (x : Branch) => p ∈ s.blk.fwd.pkts ∧ x ∈ p.branches ∧ opClass (hOp p.hdr) = l / 2
         ∧ x.out = port ∧ x.subch = l % 2 ∧ x.order ≠ 0 ∧ (x.st = .waiting ∨ x.st = .reading)
       ∀ p x, ready → held lane p x → x.st = .waiting → (∀ q y, held lane q y → x.order < y.order ∨ (q, y) = (p, x)) →
         lane % 2 = 0 ∨ (∀ q y, ¬held (lane - 1) q y) → After (.packetCommit port lane) s fun b =>
           (b.committed port lane).map (fun y => y.1.id) = some p.id))
  ∧ (∀ (s : State) (input lane now : Nat) (p : FPkt), s.carries → input < 6 →
      (s.blk.fwd.pkts.find? fun p => p.input == input && !p.routed && opClass (hOp p.hdr) == lane / 2) = some p → p.sub = lane % 2 →
      s.blk.fpkt? p.id = some p → b2n (bit p.hdr 120) = s.blk.fwd.current ∨ s.blk.fwd.other ≠ 0 →
      let out := s.blk.routeOf (b2n (bit p.hdr 120)) (hDst p.hdr)
      let held := s.blk.hamperBytes false + s.blk.hamperBytes true
      let onBlock := s.blk.hamperBytes false + p.bytes ≤ 2 ^ 20
      let enters := (onBlock ∨ s.blk.hamperFit p.bytes ≠ none) ∧ s.blk.waitsBehind p out = false
      let flushes := fun (n : Nat) => s.blk.rf (rt 0x080) 15 8 * s.blk.hamperStore ≤ n * 256
      (∀ sub, treeOp (hOp p.hdr) = false → tracked (opClass (hOp p.hdr)) = true → out < 6 → s.blk.portUp out = false →
        s.blk.hop p.input p.sub out = some sub →
        (enters → ¬flushes (held + p.bytes) → After (.forwardPacket input lane now) s fun b =>
          b.fwd.nextOrder = s.blk.fwd.nextOrder + 1 ∧ b.peek (rt 0x0C8) = satAdd (s.blk.peek (rt 0x0C8)) 1
          ∧ ∃ q ∈ b.fwd.pkts, q.id = p.id ∧ q.hdr = p.hdr ∧ q.routed = true ∧ ∃ x ∈ q.branches, x.out = out ∧ x.subch = sub
            ∧ x.epoch = b2n (bit p.hdr 120) ∧ x.st = .hamper ∧ (x.spilled = false ↔ onBlock)
            ∧ (p.branches = [] → x.order = s.blk.fwd.nextOrder))
        ∧ (¬enters → ¬flushes held → After (.forwardPacket input lane now) s fun b => b.fwd.nextOrder = s.blk.fwd.nextOrder
          ∧ ∃ q ∈ b.fwd.pkts, q.id = p.id ∧ q.routed = true ∧ ∃ x ∈ q.branches, x.out = out ∧ x.subch = sub ∧ x.st = .waiting)
        ∧ (enters → flushes (held + p.bytes) → p.branches = [] → (s.blk.fwd.pkts.map (·.id)).Nodup →
          (s.blk.rf (rt 0x080) 7 0 < s.blk.rf (rt 0x080) 15 8 → After (.forwardPacket input lane now) s fun b =>
            (b.hamperBytes false + b.hamperBytes true) * 256 < s.blk.rf (rt 0x080) 7 0 * s.blk.hamperStore
            ∨ ∀ q ∈ b.fwd.pkts, ∀ x ∈ q.branches, x.st ≠ .hamper)
          ∧ ∀ src ctx, s.blk.rf (rt 0x080) 7 0 ≤ s.blk.rf (rt 0x080) 15 8 →
              (∀ y z, (y, z) ≠ (src, ctx) → s.blk.pairBytes p y z < s.blk.pairBytes p src ctx) →
              After (.forwardPacket input lane now) s fun b =>
                (∀ q ∈ b.fwd.pkts, hSrc q.hdr = src → hCtx q.hdr = ctx → ∀ x ∈ q.branches, x.st ≠ .hamper)
                ∧ ∀ y ∈ s.blk.hampered, y.2.st = .hamper → hSrc y.1.hdr = src → hCtx y.1.hdr = ctx → tracked (opClass (hOp y.1.hdr)) = true →
                    Sends s.blk b fun q => hOp q.hdr = 0x25 ∧ hDst q.hdr = src ∧ bit q.hdr 77 = true ∧ fld q.hdr 76 71 = hOp y.1.hdr
                      ∧ fld q.hdr 70 56 = hDst y.1.hdr))
      ∧ (treeOp (hOp p.hdr) = true → s.blk.treeIn p.hdr input → p.branches = [] → p.input = input →
          (∀ k, s.blk.treeOut p.hdr k → s.blk.portUp k = true ∧ s.blk.hop input p.sub k ≠ none) →
          After (.forwardPacket input lane now) s fun b =>
            ((∃ k < 6, s.blk.treeOut p.hdr k) → ∃ q ∈ b.fwd.pkts, q.id = p.id ∧ q.hdr = p.hdr ∧ q.routed = true ∧ s.blk.treeCopies p.hdr q)
            ∧ (s.blk.member p.hdr → p.whole = true → p.killed = false →
                ∃ more, b.dest.inbox = s.blk.dest.inbox ++ more ∧ ({ hdr := p.hdr, data := p.data } : Packet) ∈ more)
            ∧ (¬s.blk.member p.hdr → b.dest.inbox = s.blk.dest.inbox)))
  ∧ (∀ (s : State) (lane now : Nat) (q : Packet), s.carries →
      s.blk.fwd.inject.find? (fun p => opClass (hOp p.hdr) == lane / 2) = some q → s.blk.fpkt? s.blk.fwd.nextId = none →
      treeOp (hOp q.hdr) = true → b2n (bit q.hdr 120) = s.blk.fwd.current → s.blk.treeIn q.hdr 6 →
      (∀ k, s.blk.treeOut q.hdr k → s.blk.portUp k = true ∧ s.blk.hop 6 0 k ≠ none) → (∃ k < 6, s.blk.treeOut q.hdr k) →
      After (.forwardPacket 6 lane now) s fun b => ∃ p ∈ b.fwd.pkts, p.id = s.blk.fwd.nextId ∧ p.hdr = q.hdr ∧ s.blk.treeCopies q.hdr p)
  ∧ ∀ (s : State) (port : Nat) (m : Slot), s.carries → port < s.blk.ports.length → s.blk.link port = 4 → (s.blk.port port).advs = [m] →
      (s.blk.port port).initGot = true → (s.blk.port port).initAcked = true →
      ∀ p ∈ s.blk.fwd.pkts, ∀ x ∈ p.branches, x.out = port → x.st = .hamper → x.spilled = false →
        After (.creditAdv port m) s fun b => b.link port = 5 ∧ ∃ q ∈ b.fwd.pkts, q.id = p.id ∧ ∃ y ∈ q.branches, y.out = port
          ∧ y.st = .waiting ∧ y.subch = x.subch ∧ y.order = x.order ∧ y.epoch = s.blk.fwd.current

/-- TICK_EDGE (R37 to R39, R436, R445, R477, R478, R488, R508, R509, R526, R527; log entries 29 and 48): at an edge of an aligned chip
the tick index and the edge's time move on by one period, and by one more for each that a step forward skips; a master's first edge
stands where it falls; a period written since then takes effect, and the index counts on through it. TEMP and the mean power take this
tick's readings, at 110 °C TRIPPED is set and THERMTRIP_N goes low, and the clock moves one step towards the smallest of the values
that bound it; each class is granted its share of the slots; at an index that EVERY divides the telemetry record is started, or
dropped and counted. A chip without edges ignores the command. A legal TIME.PERIOD written on the master is kept for the edge; any
other write of it is refused and counted with KIND 2. -/
def Obligations.TickEdges : Prop :=
  ∀ (s : State) (now temp power : Nat) (offsets : List Nat), s.carries →
    let tick := if s.blk.time.aligned then (s.blk.time.tick + 1 + s.blk.time.skip) % 2 ^ 48 else s.blk.time.tick
    (s.blk.ticks = true → After (.tickEdge now temp power offsets) s fun b =>
      b.time.tick = tick
      ∧ (s.blk.time.aligned = true → b.time.edge = s.blk.time.edge + (1 + s.blk.time.skip) * s.blk.period)
      ∧ (s.blk.time.aligned = false → b.time.edge = max s.blk.time.now now)
      ∧ (∀ ns, s.blk.time.periodDue = some ns → periodOk ns = true → b.rf wPeriod 20 0 = ns)
      ∧ (s.blk.time.periodDue = none → b.rf wPeriod 20 0 = s.blk.rf wPeriod 20 0)
      ∧ b.time.stepDue = 0 ∧ b.time.aligned = true ∧ b.time.atEdge = true ∧ b.fwd.pkts = s.blk.fwd.pkts ∧ b.segmap = s.blk.segmap)
    ∧ (s.blk.ticks = true → After (.tickEdge now temp power offsets) s fun b =>
      let powers := (power :: s.blk.boot.powers).take 64
      let mean := powers.sum / powers.length
      let cap := s.blk.rf wPower 47 32
      let cur := s.blk.rf wClock 51 40
      let fused := s.blk.fusedMhz
      let below := if mean + 40 < cap then s.blk.boot.below + 1 else 0
      let allows := if cap < mean then max 1200 (cur - 100)
        else if 1024 ≤ below then min fused (s.blk.boot.capMhz + 100) else s.blk.boot.capMhz
      let t := signed 16 (temp % 2 ^ 16)
      let limit : Int := 8 * s.blk.rf wThermal 47 40
      let thermal := if limit ≤ t then cur - 100 else if t ≤ limit - 40 then fused else cur
      let req := s.blk.rf wClock 63 52
      let least := min (min req fused) (min allows thermal)
      let target := max 1200 least
      b.rf wThermal 63 48 = temp % 2 ^ 16 ∧ b.rf wPower 63 48 = mean % 2 ^ 16
      ∧ (880 ≤ t → b.rf wThermal 30 30 = 1 ∧ b.boot.thermLow = true)
      ∧ (t < 880 → b.rf wThermal 30 30 = s.blk.rf wThermal 30 30 ∧ b.boot.thermLow = s.blk.boot.thermLow)
      ∧ (cur ≤ target → b.rf wClock 51 40 = min target (cur + 100))
      ∧ (target ≤ cur → b.rf wClock 51 40 = max target (cur - 100))
      ∧ b.rf wClock 39 36 = (if least = fused then (if fused < req then 2 else 0)
          else if req = least then 1 else if allows = least then 3 else 4))
    ∧ (s.blk.ticks = true → ∀ p < 6, p < s.blk.ports.length → After (.tickEdge now temp power offsets) s fun b =>
        ∀ c < 8, (b.port p).budget.getD c 0 = s.blk.rf (lk p 0x0E8) (8 * c + 7) (8 * c) * b.tickFlits p * 32 / 256)
    ∧ (s.blk.ticks = true → bit (s.blk.peek (cn 0x058)) 63 = true → tick % max 1 (s.blk.rf (cn 0x058) 47 32) = 0 →
        let free := s.blk.ringFree (cn 0x050) (cn 0x058) && !s.blk.rst.closed
        (free = true → After (.tickEdge now temp power offsets) s fun b =>
          b.rf (cn 0x058) 31 16 = (s.blk.rf (cn 0x058) 31 16 + 1) % 2 ^ 16
          ∧ let at_ := s.blk.rf (cn 0x050) 51 12 * 4096 + 512 * (s.blk.rf (cn 0x058) 31 16 % 2 ^ s.blk.rf (cn 0x050) 3 0)
            ∃ j ∈ b.host.jobs, s.blk.host.nextJob ≤ j.id ∧ j.len = 504 ∧ j.addr = at_ + 8 ∧ ∃ phase, j.kind = .ringPart false [(at_, phase)])
        ∧ (free = false → After (.tickEdge now temp power offsets) s fun b =>
          b.peek (cn 0x098) = satAdd (s.blk.peek (cn 0x098)) 1 ∧ b.rf (cn 0x058) 31 16 = s.blk.rf (cn 0x058) 31 16))
    ∧ (s.blk.ticks = false → After (.tickEdge now temp power offsets) s fun b => b = s.blk)
    ∧ (∀ v : Word,
        (s.blk.isMaster = true → periodOk (fld v 20 0) = true → After (.timePeriodWrite (rpOk true wPeriod v) v) s fun b =>
          b.time.periodDue = some (fld v 20 0) ∧ b.time.tick = s.blk.time.tick ∧ b.rf wPeriod 20 0 = s.blk.rf wPeriod 20 0)
        ∧ (s.blk.isMaster = false ∨ periodOk (fld v 20 0) = false → After (.timePeriodWrite (rpOk true wPeriod v) v) s fun b =>
          b.time = s.blk.time ∧ b.rf (regAt 0x03 0x018) 63 60 = 2 ∧ b.rf wPeriod 20 0 = s.blk.rf wPeriod 20 0))

/-! ### The Fold sequencer -/

/-- A data instruction whose turn it is, with its reserved bits zero and its operands good, becomes a command of its own, under the
FOLD's context and timeout, with the addresses and length its operands name; with another reserved bit it stops the program with cause
0x1, with a bad operand with cause 0x2 (R218, R223, R226 to R230, R234, R238 to R240, R248). -/
def Obligations.DataInstructions : Prop :=
  ∀ (s : State) (st : Nat) (f : Cmd) (d : Darn), s.carries → s.blk.foldCmd st = some f → s.blk.oneFold st → d ≠ .bad →
    s.blk.fold.bad.contains (s.blk.prog st).pc = false →
    let p := s.blk.prog st
    let i := s.blk.instr p.pc
    let len := p.len (fld i 103 98)
    let issued := fun (P : Cmd → Prop) (b : Block) => b.req.nextCmd = s.blk.req.nextCmd + 1 ∧ ∃ c ∈ b.req.cmds,
      c.id = s.blk.req.nextCmd ∧ c.ofFold = true ∧ c.stream = st ∧ c.ctx = f.ctx ∧ c.timeoutMs = f.timeoutMs ∧ P c
    let moves := fun (dst src : Word) (c : Cmd) => dDst c.desc = dst ∧ dSrc c.desc = src ∧ dLength c.desc = len
    let data := fun (c : Instr) (op : Nat) (zero : Prop) (gives : (Cmd → Prop) → Prop) => s.blk.fetches st op →
      (zero → ∀ P, gives P → After c s (issued P)) ∧ (¬zero → After c s fun b => b.stoppedAt st 1 p.pc)
      ∧ (zero → (∀ P, ¬gives P) → After c s fun b => b.stoppedAt st 2 p.pc)
    let wring := bit i 121
    let blk := wringBlk (b2n (bit i 75))
    data (.foldPut st d) 1 (fld i 123 120 = 0 ∧ fld i 81 0 = 0) (fun P => ∃ dst src,
      p.operand (fld i 119 112) = some dst ∧ p.operand (fld i 111 104) = some src ∧ s.blk.badAddr dst true false = false
      ∧ s.blk.isLocal src = true ∧ P = moves dst src)
    ∧ data (.foldGet st d) 2 (fld i 123 120 = 0 ∧ fld i 81 0 = 0) (fun P => ∃ dst src,
      p.operand (fld i 119 112) = some dst ∧ p.operand (fld i 111 104) = some src ∧ s.blk.badAddr src false true = false
      ∧ s.blk.isLocal dst = true ∧ (faClass src = 1 → len = 8) ∧ P = moves dst src)
    ∧ data (.putr st d) 3 (fld i 123 122 = 0 ∧ fld i 66 0 = 0 ∧ (wring = false → fld i 77 67 = 0 ∧ bit i 120 = false)
        ∧ (wring = true → s.blk.agreed 3 = true ∧ fld i 77 76 ≠ 3)) (fun P => ∃ dst src res,
      p.operand (fld i 119 112) = some dst ∧ p.operand (fld i 111 104) = some src ∧ p.operand (fld i 74 67) = some res
      ∧ s.blk.badAddr dst (!wring) false = false ∧ s.blk.isLocal src = true ∧ faOff dst % 64 = 0 ∧ len % 64 = 0
      ∧ (wring = true → s.blk.isLocal res = true ∧ len % blk = 0
          ∧ ((wringSpans (len / blk + 2) blk (faOff dst) len).map (·.2)).sum = len) ∧ P = moves dst src)
    ∧ data (.gatherIdx st d) 5 (fld i 123 120 = 0 ∧ fld i 73 0 = 0) (fun P => ∃ list dst,
      p.operand (fld i 119 112) = some list ∧ p.operand (fld i 111 104) = some dst ∧ s.blk.isLocal list = true
      ∧ s.blk.isLocal dst = true ∧ P = fun c => dSrc c.desc = list ∧ dDst c.desc = dst)
    ∧ data (.foldSignal st d) 6 (fld i 123 120 = 0 ∧ fld i 47 0 = 0) (fun P => ∃ dst,
      p.operand (fld i 119 112) = some dst ∧ s.blk.badAddr dst false true = false ∧ faClass dst = 1
      ∧ P = fun c => dOp c.desc = 0x12 ∧ dDst c.desc = dst)
    ∧ (let n := p.len (fld i 95 90)
       let good := fun (inA loc out : Word) => p.operand (fld i 119 112) = some inA ∧ p.operand (fld i 111 104) = some loc
         ∧ p.operand (fld i 103 96) = some out ∧ s.blk.isLocal inA = true ∧ s.blk.isLocal loc = true
         ∧ s.blk.badAddr out true false = false ∧ faOff inA % 4096 = 0 ∧ faOff out % 4096 = 0 ∧ faOff loc % 64 = 0 ∧ n % 64 = 0
       let zero := bit i 123 = false ∧ bit i 120 = false ∧ fld i 47 0 = 0 ∧ (bit i 122 && bit i 121) = false
       data (.pass st d) 4 zero (fun P => ∃ inA loc out, good inA loc out ∧ P = fun c => dDst c.desc = out ∧ dSrc c.desc = loc ∧ c.isPass = true)
       ∧ ∀ inA loc out, s.blk.fetches st 4 → zero → good inA loc out → n ≠ 0 → s.blk.cmd? s.blk.req.nextCmd = none →
          After (.pass st d) s fun b => (b.prog st).head = some s.blk.req.nextCmd
            ∧ ∃ q, (b.prog st).pass = some q ∧ q.inA = faOff inA ∧ q.loc = faOff loc ∧ q.out = out.toNat ∧ q.len = n
              ∧ q.keep = bit i 122 ∧ q.final = bit i 121)

/-- The control instructions (R218, R222, R223, R241 to R245, R248, R251): WAIT goes on, or holds for its counter, or stops at a
poisoned one with cause 0x5; TICK holds for its edge and counts an overrun; FENCE and DONE wait for the stream's data instructions; LOOP
counts and jumps; each then issues from the next one. Another reserved bit stops the program with cause 0x1, a bad operand with 0x2, a
LOOP's target outside the program's region with 0x3. That a forward LOOP stops with 0x1 wherever its target lies is the model's choice
(log entry 75). -/
def Obligations.ControlInstructions : Prop :=
  ∀ (s : State) (st : Nat) (f : Cmd) (d : Darn), s.carries → s.blk.foldCmd st = some f → s.blk.oneFold st → d ≠ .bad →
    s.blk.fold.bad.contains (s.blk.prog st).pc = false →
    let p := s.blk.prog st
    let i := s.blk.instr p.pc
    let stops := fun (c : Instr) (cause : Nat) => After c s fun b => b.stoppedAt st cause p.pc
    (s.blk.fetches st 7 →
      let c := fld i 119 104
      let zero := fld i 123 120 = 0 ∧ fld i 95 0 = 0
      let good := fun (e : Darn) => s.blk.ctrBad.contains c = false ∧ e ≠ .bad
      ∀ e : Darn,
      (∀ t, zero → p.operand (fld i 103 96) = some t → good e →
        (reaches (s.blk.ctrVal c) t = true → s.blk.mayRun st (p.pc + 1) → After (.wait st ⟨d, e⟩) s fun b => b.runsAt st (p.pc + 1))
        ∧ (reaches (s.blk.ctrVal c) t = false → After (.wait st ⟨d, e⟩) s fun b => (b.prog st).st = .wait
            ∧ (b.prog st).waitCtr = c ∧ (b.prog st).waitTgt = t ∧ (b.prog st).pc = p.pc))
      ∧ (zero → p.operand (fld i 103 96) ≠ none → ¬good e → After (.wait st ⟨d, e⟩) s fun b =>
          b.stoppedAt st 5 p.pc ∧ b.ctrBad.contains c = true)
      ∧ (zero → p.operand (fld i 103 96) = none → stops (.wait st ⟨d, e⟩) 2) ∧ (¬zero → stops (.wait st ⟨d, e⟩) 1))
    ∧ (s.blk.fetches st 8 →
      let zero := fld i 123 121 = 0 ∧ fld i 111 0 = 0 ∧ (bit i 120 = false → fld i 119 112 = 0)
      (zero → bit i 120 = false → After (.foldTick st d) s fun b =>
        (b.prog st).st = .tick ∧ (b.prog st).tickTgt = s.blk.time.tick + 1 ∧ (b.prog st).pc = p.pc)
      ∧ (zero → bit i 120 = true → ∀ v, p.operand (fld i 119 112) = some v →
        (s.blk.time.tick < fld v 47 0 → fld v 47 0 ≤ s.blk.time.tick + 2 ^ 24 → After (.foldTick st d) s fun b => (b.prog st).st = .tick
          ∧ (b.prog st).tickTgt = fld v 47 0 ∧ (b.prog st).sIn = 0 ∧ (b.prog st).sLoc = 0 ∧ (b.prog st).sOut = 0)
        ∧ (fld v 47 0 ≤ s.blk.time.tick → s.blk.mayRun st (p.pc + 1) → After (.foldTick st d) s fun b => b.runsAt st (p.pc + 1)
          ∧ b.peek (fo 0x128) = satAdd (s.blk.peek (fo 0x128)) 1
          ∧ Tbl.get 0 b.fold.ctrs (4 * st) = min (2 ^ 48 - 1) (Tbl.get 0 s.blk.fold.ctrs (4 * st) + 1))
        ∧ (s.blk.time.tick + 2 ^ 24 < fld v 47 0 → stops (.foldTick st d) 2))
      ∧ (zero → bit i 120 = true → p.operand (fld i 119 112) = none → stops (.foldTick st d) 2) ∧ (¬zero → stops (.foldTick st d) 1))
    ∧ (s.blk.fetches st 9 →
      (fld i 123 0 = 0 → s.blk.foldOpen st = true → After (.foldFence st d) s fun b => (b.prog st).st = .fence ∧ (b.prog st).pc = p.pc)
      ∧ (fld i 123 0 = 0 → s.blk.foldOpen st = false → s.blk.mayRun st (p.pc + 1) →
          After (.foldFence st d) s fun b => b.runsAt st (p.pc + 1))
      ∧ (fld i 123 0 ≠ 0 → stops (.foldFence st d) 1))
    ∧ (s.blk.fetches st 0xB →
      (fld i 123 0 = 0 → s.blk.foldOpen st = true → After (.foldDone st d) s fun b => (b.prog st).st = .done)
      ∧ (fld i 123 0 = 0 → s.blk.foldOpen st = false → After (.foldDone st d) s fun b => (b.prog st).st = .queue ∧ (b.prog st).cmd = 0
          ∧ (b.prog st).win = none ∧ ∀ x ∈ b.req.cmds, x.id ≠ p.cmd)
      ∧ (fld i 123 0 ≠ 0 → stops (.foldDone st d) 1))
    ∧ (s.blk.fetches st 0xA →
      let tgt := fld i 117 104
      let zero := fld i 123 121 = 0 ∧ fld i 77 0 = 0 ∧ (bit i 120 = true ∨ fld i 103 98 = 0) ∧ (bit i 120 = false ∨ fld i 97 78 = 0)
        ∧ fld i 119 118 ≠ 3 ∧ tgt ≤ p.pc
      let count := if bit i 120 then fld (p.a.getD (fld i 103 98) 0) 19 0 else fld i 97 78
      let level := fun (q : Prog) => if fld i 119 118 = 0 then q.n0 else if fld i 119 118 = 1 then q.n1 else q.n2
      (zero → level p + 1 < count → s.blk.mayRun st tgt → After (.loop st d) s fun b => b.runsAt st tgt ∧ level (b.prog st) = level p + 1)
      ∧ (zero → tgt / 1024 = p.entry / 1024 → count ≤ level p + 1 → s.blk.mayRun st (p.pc + 1) → After (.loop st d) s fun b =>
          b.runsAt st (p.pc + 1) ∧ level (b.prog st) = 0)
      ∧ (zero → tgt / 1024 ≠ p.entry / 1024 → stops (.loop st d) 3) ∧ (¬zero → stops (.loop st d) 1))

/-- A program starts, is let on, is stopped or ends (R215, R223, R230, R231, R234, R241, R242, R247 to R250): FOLD_START loads its
registers and its window, or stops it with cause 0x4 where another's window overlaps; a counter that has met its target lets it on, a
poisoned one stops it, and the time that it waits counts as an input stall; an edge lets it on; a PASS takes a staged packet; a data
instruction that completes adds its bytes to the FOLD's, and one that failed stops it at its own counter; an instruction whose check
finds an uncorrectable error, or found one since it was written, or a timeout stops it with cause 0x5 at its counter. -/
def Obligations.ProgramsRun : Prop :=
  ∀ (s : State) (st : Nat) (f : Cmd), s.carries → st < 256 → s.blk.foldCmd st = some f → s.blk.oneFold st → (s.blk.prog st).cmd ≠ 0 →
    let p := s.blk.prog st
    (∀ tbl, p.st = .starting → p.args = some tbl → tbl.length = 64 → s.blk.up = true → s.blk.rst.draining = false →
      s.blk.rst.engines.contains 12 = false →
      let lo := fld (tbl.getD 62 0) 40 0
      let hi := fld (tbl.getD 63 0) 40 0
      let clash := lo < hi ∧ ∃ t < 256, t ≠ st ∧ ∃ y, (s.blk.prog t).win = some y ∧ lo < y.2 ∧ y.1 < hi
      (¬clash → s.blk.mayRun st p.entry → After (.foldStart st) s fun b => b.runsAt st p.entry ∧ (b.prog st).n0 = 0
        ∧ (b.prog st).n1 = 0 ∧ (b.prog st).n2 = 0
        ∧ (∀ k < 64, (b.prog st).a.getD k 0 = if 1 ≤ k ∧ k ≤ 5 then dw f.desc (10 + k) else tbl.getD k 0)
        ∧ (b.prog st).win = if lo < hi then some (lo, hi) else none)
      ∧ (clash → After (.foldStart st) s fun b => b.stoppedAt st 4 p.pc))
    ∧ (∀ now d, p.st = .wait →
      let mhz := s.blk.rf (regAt 0x01 0x840) 51 40
      let cycles := max s.blk.time.now now * mhz / 16000 - s.blk.time.now * mhz / 16000
      let bad := p.met = 2 ∨ (p.met = 0 ∧ (s.blk.ctrBad.contains p.waitCtr = true ∨ d = .bad))
      let met := p.met = 1 ∨ (p.met = 0 ∧ ¬bad ∧ reaches (s.blk.ctrVal p.waitCtr) p.waitTgt = true)
      (met → s.blk.mayRun st (p.pc + 1) → After (.waitSatisfied st ⟨d, now⟩) s fun b => b.runsAt st (p.pc + 1))
      ∧ (bad → After (.waitSatisfied st ⟨d, now⟩) s fun b => b.stoppedAt st 5 p.pc)
      ∧ (p.met = 0 → ¬bad → ¬met → After (.waitSatisfied st ⟨d, now⟩) s fun b => (b.prog st).st = .wait ∧ (b.prog st).pc = p.pc)
      ∧ (p.met = 0 → After (.waitSatisfied st ⟨d, now⟩) s fun b => (b.prog st).sIn = p.sIn + cycles
          ∧ Tbl.get 0 b.fold.ctrs (4 * st + 1) = min (2 ^ 48 - 1) (Tbl.get 0 s.blk.fold.ctrs (4 * st + 1) + cycles)))
    ∧ (p.st = .tick → p.tickTgt ≤ s.blk.time.tick → s.blk.mayRun st (p.pc + 1) →
        After (.foldTickRelease st) s fun b => b.runsAt st (p.pc + 1))
    ∧ (∀ ps x inp loc out, p.pass = some ps → p.head = some ps.cmd → p.st = .issuing → s.blk.mayRun st (p.pc + 1) →
        s.blk.fold.staged.find? (fun x => x.stream == st && x.src == ps.up && decide (ps.inA ≤ x.off)
          && decide (x.off + x.span ≤ ps.inA + ps.len)) = some x → x.id < s.blk.fold.nextStaged →
        After (.passConsume st inp loc out) s fun b => (∀ y ∈ b.fold.staged, y.id ≠ x.id)
          ∧ (∀ y ∈ s.blk.fold.staged, y.stream = st → y.id ≠ x.id → y ∈ b.fold.staged)
          ∧ ∃ q, (b.prog st).pass = some q ∧ q.consumed = ps.consumed + x.span ∧ q.nextK = ps.nextK + 1)
    ∧ (∀ id now c d, s.blk.cmd? id = some c → c.ofFold = true → c.stream = st → s.blk.covered c = true → f.id ≠ id →
        d ∈ s.blk.req.cmds → d.stream = st → d.ofFold = true → d.id ≠ id →
        After (.instructionCompletion id now) s fun b => (∀ x ∈ b.req.cmds, x.id ≠ id)
          ∧ (∃ x ∈ b.req.cmds, x.id = f.id ∧ x.bytesOk = f.bytesOk + c.bytesOk ∧ rank c.status ≤ rank x.status)
          ∧ (c.status ≠ 0 → p.st ≠ .stopping → b.stoppedAt st 5 c.pc))
    ∧ ((p.st = .wait ∧ p.met = 0) ∨ p.st = .fence ∨ p.st = .done ∨ (p.st = .issuing ∧ p.head ≠ none ∧ p.head = p.pass.map (·.cmd)) →
        s.blk.creased = false → msUnits f.timeoutMs < s.blk.time.edge - p.since →
        After (.foldTimeout st) s fun b => b.stoppedAt st 5 p.pc ∧ (b.prog st).win = none)
    ∧ ∀ (d e : Darn), ∀ x ∈ [(Instr.foldPut st d, 1), (Instr.foldGet st d, 2), (Instr.putr st d, 3), (Instr.pass st d, 4),
          (Instr.gatherIdx st d, 5), (Instr.foldSignal st d, 6), (Instr.wait st ⟨d, e⟩, 7), (Instr.foldTick st d, 8),
          (Instr.foldFence st d, 9), (Instr.loop st d, 0xA), (Instr.foldDone st d, 0xB)],
        s.blk.fetches st x.2 → (d = .bad ∨ s.blk.fold.bad.contains p.pc = true) → After x.1 s fun b =>
          b.stoppedAt st 5 p.pc ∧ b.fold.bad.contains p.pc = true

/-! ### Links -/

/-- P*n*_LINK.CONTROL (R364, R367, R371, R399, R408, R428): DOWN_REQ and RETRAIN bring a port down with cause 8, RETRAIN ends a test and
starts training over, RELEASE starts the training of a port in QUARANTINE, AUTO_RETRAIN that of a port in DOWN without a test; a
training waits for a core that restarts; more than one of the three requests is refused. That FAIL_CAUSE and RATE are cleared as training
starts is the model's choice (log entry 47). -/
def Obligations.LinkControl : Prop :=
  ∀ (s : State) (p : Nat) (v : Word), s.live → p < 6 →
    let ctl := fun (k : Nat) => rpOk true (lk p 0x048) (setBit v k true)
    let begun := fun (b : Block) => b.lstep p = 1 ∧ b.rf (ln p 0x040) 53 50 = 0 ∧ b.rf (ln p 0x040) 59 58 = 3
      ∧ (p < s.blk.ports.length → b.link p = 1)
    let starts := fun (c : Instr) => s.blk.trainable p = true → (s.blk.boot.restarting = false → After c s begun)
      ∧ (s.blk.boot.restarting = true → After c s fun b => p ∈ b.boot.trainDue)
    (fld v 62 61 = 0 → After (.downReq (ctl 63) p v) s fun b => b.link p = 0 ∧ (s.blk.link p ≠ 0 → (b.port p).cause = 8)
        ∧ b.rf (lk p 0x048) 60 58 = fld v 60 58)
    ∧ (∀ c, (c = .downReq (ctl 63) p v ∧ fld v 62 61 ≠ 0) ∨ (c = .retrain (ctl 62) p v ∧ (fld v 63 63 ≠ 0 ∨ fld v 61 61 ≠ 0))
          ∨ (c = .release (ctl 61) p v ∧ fld v 63 62 ≠ 0) →
        After c s fun b => b.ports = s.blk.ports ∧ b.lanes = s.blk.lanes ∧ b.peek (lk p 0x048) = s.blk.peek (lk p 0x048)
          ∧ b.rf (regAt (0x10 + p) 0x018) 63 60 = 2)
    ∧ (fld v 63 63 = 0 → fld v 61 61 = 0 → starts (.retrain (ctl 62) p v)
        ∧ (After (.retrain (ctl 62) p v) s fun b => b.rf (ln p 0x098) 63 61 = 0 ∧ (s.blk.link p ≠ 0 → (b.port p).cause = 8)
          ∧ (s.blk.trainable p = false → b.link p = 0)))
    ∧ (fld v 63 62 = 0 → (s.blk.link p = 3 → starts (.release (ctl 61) p v))
        ∧ (s.blk.link p ≠ 3 → After (.release (ctl 61) p v) s fun b => b.ports = s.blk.ports ∧ b.lanes = s.blk.lanes
          ∧ b.rf (lk p 0x048) 60 58 = fld v 60 58))
    ∧ (s.blk.link p = 0 → s.blk.rf (lk p 0x048) 60 60 = 1 → s.blk.rf (ln p 0x098) 63 61 = 0 → starts (.autoRetrain p))
    ∧ (s.blk.link p ≠ 0 ∨ s.blk.rf (lk p 0x048) 60 60 = 0 ∨ s.blk.rf (ln p 0x098) 63 61 ≠ 0 →
        After (.autoRetrain p) s fun b => b = s.blk)

/-- Other writes of a port's pages (R372, R373, R366, R396, R408, R8, R377): a receive limit, the class shares, QUIESCE, slips and a test
mode, each taken within its limits and refused outside them; a slip delays a lane's sampling by its bits, and the lane looks for its
marker again; a test begins each lane's pattern or its framing; a test rate above the fused limit runs at the limit and sets CLAMPED.
The refusal of a reserved test mode, and the limits of a slip, are the model's choice (log entries 29, 34), as are the generators' start
and the RATE stored as it was clamped (log entry 70), and the marker looked for again (log entry 71). -/
def Obligations.PortRegisters : Prop :=
  ∀ (s : State) (p : Nat) (v : Word), s.live → p < 6 →
    let test := rpOk true (ln p 0x098) v
    let refused := fun (b : Block) (page : Nat) => b.ports = s.blk.ports ∧ b.lanes = s.blk.lanes ∧ b.rf (regAt (page + p) 0x018) 63 60 = 2
    (∀ q, s.blk.ports[p]? = some q →
      let i := s.blk.rf (lk p 0x078) 4 0
      let lim := q.limits.set i (fld v 63 48)
      let sum := fun (odd : Nat) => ((List.range 16).map fun k => lim.getD (2 * k + odd) 0).sum
      After (.creditLimitWrite (rpOk true (lk p 0x080) v) p v) s fun b =>
        (s.blk.rf (lk p 0x078) 5 5 = 0 → b.ports = s.blk.ports)
        ∧ (s.blk.rf (lk p 0x078) 5 5 = 1 →
          (sum 0 ≤ 2048 ∧ sum 1 ≤ 65536 ∧ (28 ≤ i → fld v 63 48 = 0) → b.ports[p]? = some { q with limits := lim })
          ∧ (2048 < sum 0 ∨ 65536 < sum 1 ∨ (28 ≤ i ∧ fld v 63 48 ≠ 0) → refused b 0x10)))
    ∧ (let sum := ((List.range 8).map fun c => fld v (8 * c + 7) (8 * c)).sum
       After (.classShareWrite (rpOk true (lk p 0x0E8) v) p v) s fun b =>
        (sum ≤ 256 ∧ fld v 63 56 = 0 → b.peek (lk p 0x0E8) = v)
        ∧ (256 < sum ∨ fld v 63 56 ≠ 0 → b.peek (lk p 0x0E8) = s.blk.peek (lk p 0x0E8) ∧ refused b 0x10))
    ∧ After (.linkQuiesce (rpOk true (lk p 0x010) v) p v) s (fun b => b.rf (lk p 0x010) 1 1 = fld v 1 1 ∧ b.rf (lk p 0x010) 0 0 = s.blk.rf (lk p 0x010) 0 0
        ∧ b.ports = s.blk.ports ∧ b.fwd = s.blk.fwd)
    ∧ (let taken := s.blk.bitslipOk p v = true ∧ s.blk.rf (ln p 0x068) 63 63 = 0
       (taken → After (.bitslipWrite (rpOk true (ln p 0x068) v) p v) s fun b => b.rf (ln p 0x068) 63 63 = 1
          ∧ b.lanes = s.blk.lanes.modify p fun l => { l with slip := some (fld v 11 8, fld v 6 0) })
       ∧ (¬taken → After (.bitslipWrite (rpOk true (ln p 0x068) v) p v) s fun b => b.peek (ln p 0x068) = s.blk.peek (ln p 0x068) ∧ refused b 0x18))
    ∧ (∀ l k n, s.carries → s.blk.lanes[p]? = some l →
        (l.slip = none → After (.bitslipDone p) s fun b => b = s.blk)
        ∧ (l.slip = some (k, n) → After (.bitslipDone p) s fun b => b.rf (ln p 0x068) 63 63 = 0
          ∧ ∃ x, b.lanes[p]? = some x ∧ x.slip = none
            ∧ (∀ y, l.lanes[k]? = some y → x.lanes[k]? = some { y with off := y.off + n, run := 0, marker := false })
            ∧ (∀ y, l.rx.lanes[k]? = some y → x.rx.lanes[k]? = some { y with drop := y.drop + n })
            ∧ ∀ j, j ≠ k → x.lanes[j]? = l.lanes[j]? ∧ x.rx.lanes[j]? = l.rx.lanes[j]?))
    ∧ (let rate := if fld v 58 57 = 2 ∧ bitN s.blk.fusedRates 2 = false then 1 else fld v 58 57
       (fld v 63 61 = 0 → After (.testModeWrite test p v) s fun b => b.rf (ln p 0x098) 63 54 = fld v 63 54 ∧ b.lanes = s.blk.lanes)
       ∧ (fld v 63 61 ≠ 0 → fld v 63 61 ≤ 4 → s.blk.link p = 0 ∨ s.blk.link p = 3 →
          After (.testModeWrite test p v) s fun b => b.rf (ln p 0x098) 63 59 = fld v 63 59 ∧ b.rf (ln p 0x098) 58 57 = rate
            ∧ b.rf (ln p 0x098) 56 54 = fld v 56 54 ∧ (rate ≠ fld v 58 57 → b.rf wClock 35 35 = 1)
            ∧ ∀ l, s.blk.lanes[p]? = some l → ∃ x, b.lanes[p]? = some x
              ∧ x.gen = (List.range 16).map (Config.prbsSeed (fld v 60 59)) ∧ x.chk = x.gen
              ∧ (fld v 56 56 = 1 → x.tx = Framer.fresh (fld v 55 54) ∧ x.rx = Deframer.fresh (fld v 55 54))
              ∧ (fld v 56 56 = 0 → x.tx = l.tx ∧ x.rx = l.rx))
       ∧ (4 < fld v 63 61 ∨ (fld v 63 61 ≠ 0 ∧ s.blk.link p ≠ 0 ∧ s.blk.link p ≠ 3) →
          After (.testModeWrite test p v) s fun b => b.peek (ln p 0x098) = s.blk.peek (ln p 0x098) ∧ refused b 0x18))

/-- A flit time of a port (R333, R338, R345, R348, R350, R361, R365, R382, R394, R405, R414, R524): a NAK that is due leaves first, a replay goes on with
the flit it has come to, a port in INIT sends its INIT flit as a new sequenced flit, a port in UP the next packet of the one lane that
is ready, and one with nothing to send, or a full window, an IDLE; each leaves with its CRC, as bits of the stream on the lanes. Outside
INIT and UP the lanes of a powered port carry training frames in steps 3 to 5, IDLE flits with a zero header from step 6 to SEAM, and the
pattern of a PATTERN test; in a loop inside the block the line is idle and what is sent comes back without an error (Table 10.10). A port
in SEAM whose check is done enters INIT (R414). The order of classes is an operand, as far as it is open, and 132 symbols of each lane in a
flit time of a pattern test and the training frame that starts its sequence afresh are the model's choice (log entries 14, 68, 70). -/
def Obligations.FlitSending : Prop :=
  ∀ (s : State) (p : Nat) (picks : List Nat) (l : LaneSt), s.carries → s.blk.lanes[p]? = some l →
    let q := s.blk.port p
    let sends := fun (typ seq : Nat) (body : List Slot) (b : Block) => ∃ w, (b.port p).wire = some w ∧ flType w.1 = typ
      ∧ flSeq w.1 = seq % 2 ^ 20 ∧ flAck w.1 = q.e % 2 ^ 20 ∧ w.2.1 = body ∧ w.2.2.2 = crc32 (flitBytes w.1 w.2.1 w.2.2.1)
      ∧ (b.lane p).tx = l.tx.push (flitBits w.1 w.2.1 w.2.2.1 w.2.2.2)
    let blank := List.replicate 32 emptySlot
    (s.blk.link p = 4 ∨ s.blk.link p = 5 →
      (q.nakDue = true → After (.flitSend p picks) s fun b => (b.port p).nakDue = false ∧ (b.port p).n = q.n
          ∧ (b.port p).nakLast = some (q.e, s.blk.time.now) ∧ sends 2 q.n blank b)
      ∧ (∀ a f, q.nakDue = false → q.replay = some a → q.flits.find? (fun f => f.seq == a) = some f → f.spilled = false →
          After (.flitSend p picks) s fun b => (b.port p).n = q.n ∧ sends (f.typ % 4) a f.body b
            ∧ (b.port p).replay = (if (a + 1) % 2 ^ 20 = q.n then none else some ((a + 1) % 2 ^ 20))
            ∧ b.peek (lk p 0x0B8) = satAdd (s.blk.peek (lk p 0x0B8)) 1)
      ∧ (q.nakDue = false → q.replay = none →
          s.blk.window p ≤ q.outstanding ∨ (q.st = 4 ∧ q.initSent = true) ∨ (q.st = 5 ∧ ∀ i, s.blk.laneReady p i = false) →
          After (.flitSend p picks) s fun b => (b.port p).n = q.n ∧ (b.port p).flits = q.flits ∧ sends 1 q.n blank b)
      ∧ (q.nakDue = false → q.replay = none → q.outstanding < s.blk.window p →
          (q.st = 4 → q.initSent = false → After (.flitSend p picks) s fun b => (b.port p).initSent = true
            ∧ (b.port p).n = (q.n + 1) % 2 ^ 20 ∧ sends 3 q.n (s.blk.initBody p) b
            ∧ ∃ f ∈ (b.port p).flits, f.seq = q.n ∧ f.typ = 3 ∧ f.body = s.blk.initBody p)
          ∧ ∀ i x y, i < 16 → q.st = 5 → q.txCur = none → s.blk.laneReady p i = true → (∀ j, j ≠ i → s.blk.laneReady p j = false) →
            s.blk.committed p i = some (x, y) → y.sent = 0 → y.kill = false →
            After (.flitSend p picks) s fun b => (b.port p).n = (q.n + 1) % 2 ^ 20
              ∧ ∃ body, body.head? = some (outHdr x.hdr y) ∧ sends 0 q.n body b
                ∧ ∃ f ∈ (b.port p).flits, f.seq = q.n ∧ f.typ = 0 ∧ f.body = body))
    ∧ (s.blk.link p ≠ 4 → s.blk.link p ≠ 5 → l.powered = true → (∀ k < 6, s.blk.link k = 2 → s.blk.seamOpen k) →
        let hdr := word (put 1 2 22)
        let bits := flitBits hdr blank 0 (crc32 (flitBytes hdr blank 0))
        let pattern := l.gen.map fun g => (prbsLevels (s.blk.rf (ln p 0x098) 60 59) 132 g).1
        let framing := s.blk.link p = 2 ∨ (s.blk.link p = 1 ∧ 6 ≤ s.blk.lstep p)
        let tests := s.blk.link p ≠ 1 ∧ s.blk.link p ≠ 2 ∧ s.blk.mission p = false
        (framing → After (.flitSend p picks) s fun b => b.lanes = s.blk.lanes.modify p fun x => { x with tx := x.tx.push bits })
        ∧ (¬framing → s.blk.mission p = true → After (.flitSend p picks) s fun b => b.ports = s.blk.ports
            ∧ b.lanes = s.blk.lanes.modify p (fun x => x.loopFlit bits) ∧ (b.lane p).tx.out = [])
        ∧ (s.blk.link p = 1 → 3 ≤ s.blk.lstep p → s.blk.lstep p < 6 → s.blk.mission p = false → After (.flitSend p picks) s fun b =>
            (b.lane p).tx.out = (List.range 16).map (fun k => trainFrame k (s.blk.lstep p)) ∧ b.ports = s.blk.ports)
        ∧ (tests → s.blk.testMode p = 4 →
            After (.flitSend p picks) s fun b => b.ports = s.blk.ports ∧ (b.lane p).tx.out = pattern ∧ (b.lane p).chk = l.chk)
        ∧ (tests → s.blk.testMode p = 1 ∨ s.blk.testMode p = 2 →
            After (.flitSend p picks) s fun b => b.ports = s.blk.ports ∧ (b.lane p).tx.out = []
              ∧ ∀ k, k < 16 → k < l.gen.length → l.chk[k]? = l.gen[k]? → k < l.prbs.length →
                (∀ y, l.rx.lanes[k]? = some y → y.drop = 0 ∧ y.len = 0 ∧ y.bits = 0) → (b.lane p).prbs[k]? = l.prbs[k]?)
        ∧ (s.blk.mission p = false → (s.blk.link p = 1 ∧ s.blk.lstep p < 3) ∨ (s.blk.link p ≠ 1 ∧ s.blk.link p ≠ 2
              ∧ s.blk.testMode p ≠ 1 ∧ s.blk.testMode p ≠ 2 ∧ s.blk.testMode p ≠ 4) →
            After (.flitSend p picks) s fun b => b = s.blk))
    ∧ (s.blk.link p ≠ 4 → s.blk.link p ≠ 5 → l.powered = false → (∀ k < 6, s.blk.link k = 2 → s.blk.seamOpen k) →
        After (.flitSend p picks) s fun b => b = s.blk)
    ∧ (p < 6 → s.blk.link p = 2 → s.blk.seamReady p → After (.flitSend p picks) s fun b => b.link p = 4)

/-- Arriving flits (R332, R335, R336, R341 to R349, R362, R364, R365), as the levels of the lanes bring them: the codewords or words that
become whole are decoded, and a flit with a bad CRC or in an uncorrectable codeword is counted and a NAK becomes due, or the port goes
down past its limit; a parity error in E1 takes it down. A good flit acknowledges; a NORMAL flit in turn is accepted and its packets enter
the forwarding core; a NAK starts a replay; an INIT flit in turn is taken in INIT, a malformed one is a protocol error, and the last of
its CREDIT_ADV messages brings the port up where its own INIT flit is acknowledged. -/
def Obligations.FlitArrivals : Prop :=
  ∀ (s : State) (p now : Nat) (air : Air) (l : LaneSt), s.carries → s.blk.lanes[p]? = some l →
    let q := s.blk.port p
    let r := l.rx.arrive (s.blk.logical p air) 0
    let cmd := fun (typ : Nat) => if typ = 0 then Instr.normalFlit p air now else if typ = 1 then .idleFlit p air now
      else if typ = 2 then .nakFlit p air now else .initMessage p air now
    (∀ typ, s.blk.framed p = false → After (cmd typ) s fun b => b = s.blk)
    ∧ (∀ typ, s.blk.framed p = true → r.1.flit = none → r.2.odd = false → After (cmd typ) s fun b => b.ports = s.blk.ports
        ∧ (b.lane p).rx = r.1)
    ∧ (∀ typ, s.blk.link p = 4 ∨ s.blk.link p = 5 → (∀ f d, r.1.flit = some (f, d) → f.bad = true ∨ flType f.hdr = min typ 3) →
        r.2.odd = true → After (cmd typ) s fun b => b.link p = 0 ∧ (b.port p).cause = 3)
    ∧ (∀ (f : Flit) (d : Deframer), s.blk.link p = 4 ∨ s.blk.link p = 5 → r.1.flit = some (f, d) → r.2.odd = false →
      let inTurn := fun (typ : Nat) => goodFlit f = true ∧ flType f.hdr = typ ∧ subMod 20 (flSeq f.hdr) q.e = 0
      let bads := (q.badPos.filter fun y => decide (q.pos + 1 < y + 2 ^ 20)).length
      let limit := s.blk.rf (lk p 0x050) 47 32
      (∀ typ, goodFlit f = false → f.bad = true ∨ flType f.hdr = min typ 3 →
        (q.nakLast = none → bads < limit → After (cmd typ) s fun b => b.peek (lk p 0x098) = satAdd (s.blk.peek (lk p 0x098)) 1
          ∧ (b.port p).nakDue = true ∧ (b.port p).e = q.e ∧ b.link p = s.blk.link p ∧ (b.lane p).rx = d)
        ∧ (limit ≤ bads → After (cmd typ) s fun b => b.link p = 0 ∧ (b.port p).cause = 1))
      ∧ (goodFlit f = true → q.st = 5 → flType f.hdr = 1 →
          After (.idleFlit p air now) s fun b => b.peek (lk p 0x090) = satAdd (s.blk.peek (lk p 0x090)) 1 ∧ b.link p = 5
            ∧ (0 < subMod 20 (flAck f.hdr) q.o → subMod 20 (flAck f.hdr) q.o ≤ q.outstanding → (b.port p).o = flAck f.hdr))
      ∧ (inTurn 0 → q.st = 5 → q.rxCur = none →
          ((∀ x ∈ f.body, x = emptySlot) → After (.normalFlit p air now) s fun b => b.link p = 5 ∧ (b.port p).e = (q.e + 1) % 2 ^ 20)
          ∧ (∀ h rest, f.body = h :: rest → h ≠ emptySlot → hOp h = 0 ∨ (hOp h = 0x3F ∧ bit f.echo 0 = false) →
              After (.normalFlit p air now) s fun b => b.link p = 0 ∧ (b.port p).cause = 5)
          ∧ ∀ (h : Slot) (ds rest : List Slot), let lane := 2 * opClass (hOp h) + b2n (bit h 121)
            let free := fun (i n : Nat) => subMod 24 (q.rxUsed.getD i 0) (q.rxBack.getD i 0) + n ≤ q.rxLimit.getD i 0
            f.body = h :: ds ++ rest → ds.length = hSlots h → (∀ x ∈ rest, x = emptySlot) → (∀ k, k < ds.length → bit f.echo (k + 1) = false) →
            hOp h ≠ 0 → hOp h ≠ 0x3F → (∀ x ∈ q.rxLanes, x.1 ≠ lane) → free (laneCtr lane) 1 →
            (ds ≠ [] → free (laneCtr lane + 1) ds.length) →
            s.blk.fpkt? s.blk.fwd.nextId = none →
            After (.normalFlit p air now) s fun b => (b.port p).e = (q.e + 1) % 2 ^ 20
              ∧ ∃ x ∈ b.fwd.pkts, x.hdr = h ∧ x.data = ds ∧ x.input = p ∧ x.id = s.blk.fwd.nextId)
      ∧ (goodFlit f = true → q.st = 5 → flType f.hdr = 2 → flAck f.hdr = q.o → q.o ≠ q.n → q.replay = none →
          After (.nakFlit p air now) s fun b => b.peek (lk p 0x0B0) = satAdd (s.blk.peek (lk p 0x0B0)) 1 ∧ (b.port p).replay = some q.o)
      ∧ (inTurn 3 → q.st = 4 → q.initGot = false →
          (q.initOk f = true → After (.initMessage p air now) s fun b => (b.port p).initGot = true ∧ (b.port p).e = (q.e + 1) % 2 ^ 20
            ∧ (b.port p).advs = (f.body.drop 1).take 8)
          ∧ (q.initOk f = false → After (.initMessage p air now) s fun b => b.link p = 0 ∧ (b.port p).cause = 5)))
    ∧ ∀ (m : Slot) (t : List Slot),
      (q.st = 4 → q.advs = m :: t → After (.creditAdv p m) s fun b => (b.port p).advs = t
        ∧ (b.port p).txLimit = (List.range 4).foldl (fun v j => v.set (4 * fld m 119 117 + j) (fld m (16 * j + 15) (16 * j))) q.txLimit
        ∧ b.link p = if q.initGot = true ∧ t = [] ∧ q.initAcked = true then 5 else 4)
      ∧ (q.st ≠ 4 ∨ q.advs.head? ≠ some m → After (.creditAdv p m) s fun b => b = s.blk)

/-- The timers of a port and a marker (R340, R341, R352, R364, R367, Table 9.9): no ACK for REPLAY_TIMEOUT starts a replay, or takes the
port down after the last; INIT that lasts too long takes it down; a marker at the tracked boundary changes no flit, one off it makes the
flits since the last one bad and moves the receiver to its boundary. The commands are the expiries themselves (log entry 11); a flit that
was accepted stays accepted (log entry 71). -/
def Obligations.LinkTimers : Prop :=
  ∀ (s : State) (p : Nat), s.carries →
    let q := s.blk.port p
    let live := s.blk.link p = 4 ∨ s.blk.link p = 5
    (live → q.flits ≠ [] → q.replays < max 1 (s.blk.rf (lk p 0x050) 15 8) →
      After (.replayTimeout p) s fun b => (b.port p).replay = some q.o ∧ (b.port p).replays = q.replays + 1
        ∧ b.peek (lk p 0x0C0) = satAdd (s.blk.peek (lk p 0x0C0)) 1)
    ∧ (live → q.flits ≠ [] → max 1 (s.blk.rf (lk p 0x050) 15 8) ≤ q.replays →
      After (.replayTimeout p) s fun b => b.link p = 0 ∧ (b.port p).cause = 4)
    ∧ (¬live ∨ q.flits = [] → After (.replayTimeout p) s fun b => b = s.blk)
    ∧ (s.blk.link p = 4 → After (.initTimeout p) s fun b => b.link p = 0 ∧ (b.port p).cause = 9)
    ∧ (s.blk.link p ≠ 4 → After (.initTimeout p) s fun b => b = s.blk)
    ∧ ∀ (air mark : Air) (now : Nat) (l : LaneSt) (d : Deframer) (m : Option (Nat × Nat)) (g : Found), s.blk.lanes[p]? = some l → live →
      l.rx.marker (s.blk.logical p (joinAir air mark)) = some (d, m, g) → g.odd = false →
      (m = none ∨ m.map (·.1) = some d.tracked → After (.markerCodeword p air mark now) s fun b => b.ports = s.blk.ports
        ∧ (b.lane p).rx = { d with mark := q.pos })
      ∧ (∀ ptr grp, m = some (ptr, grp) → ptr ≠ d.tracked →
          let part := if d.skip < streamLen d.chunks then 1 else 0
          let late := ((List.range (q.pos - d.mark)).map fun i => d.mark + 1 + i).filter fun x => !(q.badPos.contains x)
          0 < late.length + part →
          After (.markerCodeword p air mark now) s fun b => b.peek (lk p 0x098) = satAdd (s.blk.peek (lk p 0x098)) (late.length + part)
            ∧ (b.lane p).rx = { d with mark := q.pos, chunks := [], skip := ptr })

/-! ### The pilot lane, training, the seam and time -/

/-- The pilot lane (R383 to R387, R391, Tables 9.9, 10.5, 10.7): 64 valid headers in a row gain symbol lock, 16 invalid ones of the last
64 lose it; the polarity is that in which a message's CRC passes; a lane that stays without lock takes its port down, or ends its training
with PILOT_LOSS from step 2 on; the sender leaves the message that is due, or IDLE, after the IDLE messages between, scrambled, and a
descrambler that stands where the scrambler stood reads it back. The polarity of a lock before any message has passed is the model's choice
(log entry 47). -/
def Obligations.PilotLane : Prop :=
  (∀ (s : State) (p : Nat) (l : LaneSt), s.carries → s.blk.lanes[p]? = some l →
    (∀ m : List PilotBlock,
      let last := m.drop (m.length - 64)
      let gains := l.powered = true ∧ s.blk.pilotLock p = false ∧ 64 ≤ m.length ∧ ∀ x ∈ last, headerOk x = true
      (gains → After (.pilotSymbolLock p m) s fun b => b.pilotLock p = true ∧ b.ports = s.blk.ports
          ∧ (pilotFinds false m 0 = true → b.rf (ln p 0x040) 55 55 = 0)
          ∧ (pilotFinds false m 0 = false → pilotFinds true m 0 = true → b.rf (ln p 0x040) 55 55 = 1)
          ∧ b.lanes = s.blk.lanes.modify p fun x => { x with lossRunning := false, headers := List.replicate 64 true, pilotRx := pilotAfter m 0 })
      ∧ (¬gains → After (.pilotSymbolLock p m) s fun b => b = s.blk)
      ∧ (let lost := ∃ k < m.length, let h := l.headers ++ (m.take (k + 1)).map headerOk
           16 ≤ ((h.drop (h.length - 64)).filter fun ok => !ok).length
         s.blk.pilotOn p = true → l.headers.length ≤ 64 →
           (lost → After (.pilotLockLoss ⟨p, m⟩) s fun b => b.pilotLock p = false ∧ (b.lane p).lossRunning = true
             ∧ b.peek (ln p 0x0B0) = satAdd (s.blk.peek (ln p 0x0B0)) 1)
           ∧ (¬lost → After (.pilotLockLoss ⟨p, m⟩) s fun b => b.regs = s.blk.regs
             ∧ (b.lane p).pilotRx = pilotAfter m l.pilotRx ∧ (b.lane p).lossRunning = l.lossRunning))
      ∧ (s.blk.pilotOn p = false → After (.pilotLockLoss ⟨p, m⟩) s fun b => b = s.blk))
    ∧ (s.blk.pilotLock p = false → l.lossRunning = true →
        (s.blk.link p = 4 ∨ s.blk.link p = 5 →
          After (.pilotLossTimeout p) s fun b => b.link p = 0 ∧ (b.port p).cause = 2)
        ∧ (s.blk.link p = 2 ∨ (s.blk.link p = 1 ∧ 2 ≤ s.blk.lstep p) → After (.pilotLossTimeout p) s fun b => b.link p = 0
            ∧ (b.port p).cause = 0xA ∧ b.rf (ln p 0x040) 53 50 = 1))
    ∧ (s.blk.pilotLock p = true ∨ l.lossRunning = false ∨ s.blk.link p = 0 ∨ s.blk.link p = 3 ∨ (s.blk.link p = 1 ∧ s.blk.lstep p < 2) →
        After (.pilotLossTimeout p) s fun b => b = s.blk)
    ∧ (let leaves := fun (t : Nat) (m : PilotMsg) => ∀ n now, After (.pilotMessageSend p t n now) s fun b => b.ports = s.blk.ports
         ∧ b.regs = s.blk.regs ∧ b.lanes = s.blk.lanes.modify p fun x => (x.sendPilot (List.replicate n (mkPilot 0 0 []))).sendPilot [m]
       let st := if s.blk.testMode p = 0 then s.blk.link p else 0
       (l.powered = false → ∀ t n now, After (.pilotMessageSend p t n now) s fun b => b = s.blk.clock now)
       ∧ (l.powered = true → leaves 3 (mkPilot 3 (st % 16 + 16 * ((s.blk.port p).cause % 16)) [])
         ∧ (s.blk.link p = 1 → s.blk.lstep p = 1 →
            leaves 5 (mkPilot 5 0 [word ((s.blk.rf (ln p 0x048) 63 61 &&& s.blk.fusedRates) + 8 * s.blk.ownModes p)]))
         ∧ (∀ r, l.result = some r → leaves 7 (mkPilot 7 (r % 16 + 16 * s.blk.rf (ln p 0x088) 59 52) []))
         ∧ ∀ t, t ≠ 3 → ¬(t = 4 ∧ s.blk.link p = 1) → ¬(t = 5 ∧ s.blk.link p = 1 ∧ s.blk.lstep p = 1) → ¬(t = 6 ∧ s.blk.link p = 2) →
            ¬(t = 7 ∧ l.result ≠ none) → leaves t (mkPilot 0 0 []))))
  ∧ ∀ (m : PilotMsg) (x : Nat), let r := pilotBlocks true (m.ctl :: m.data) x
      pilotPayloads r.1 x = ((true, m.ctl) :: m.data.map (fun w => (false, w)), r.2)

/-- Pilot messages (R383, R385 to R387, R390, R391, R393): a message is taken where the lane is in lock, its blocks spell one and its
CRC passes, in the polarity in use or, failing that, in the other, which is then in use. IDLE changes nothing but the descrambler; a bad CRC and a reserved MTYPE are counted; LINK_STATE of a peer that is not up
takes a port in INIT or UP down, and starts one in TRAINING or SEAM over; CAPS is kept; TRAIN gives the peer's step and steps the
transmitters' taps, and one with a lower step starts training over, but for one that repeats that the step before is done; taps held, and
SEAM counted as step 8, are log entry 47's too. -/
def Obligations.PilotMessages : Prop :=
  ∀ (s : State) (p : Nat) (bs : List PilotBlock) (l : LaneSt), s.carries → s.blk.lanes[p]? = some l →
    let r := s.blk.pilotTake p bs
    let read := r.1
    let cmds := [.pilotIdle p bs, .linkState p bs, .train p bs, .caps p bs, .seam p bs, .seamResult p bs, .pilotMessageDiscard p bs]
      ++ ([0, 1].flatMap fun n => [Instr.pilotTick p bs n, .pilotTime p bs n, .delayReq p bs n n, .delayResp p bs n])
    (s.blk.pilotOn p = false → ∀ c ∈ cmds, After c s fun b => b = s.blk)
    ∧ (s.blk.pilotOn p = true → r.2 = none → ∀ c ∈ cmds, After c s fun b => b = read)
    ∧ (let flip := bit (s.blk.peek (ln p 0x040)) 55
       let turns := pilotPasses flip bs l.pilotRx = false ∧ pilotPasses (!flip) bs l.pilotRx = true
       s.blk.pilotOn p = true → read.pilotLock p = true → read.ports = s.blk.ports ∧ (read.lane p).pilotRx = pilotAfter bs l.pilotRx
         ∧ (turns → r.2 = pilotSpell (!flip) bs l.pilotRx ∧ read.rf (ln p 0x040) 55 55 = b2n (!flip))
         ∧ (¬turns → r.2 = pilotSpell flip bs l.pilotRx ∧ read.regs = s.blk.regs))
    ∧ ∀ m, s.blk.pilotOn p = true → r.2 = some m →
      (pmGood m = false → ∀ c ∈ cmds, After c s fun b =>
          b.peek (ln p 0x0A8) = satAdd (s.blk.peek (ln p 0x0A8)) 1 ∧ b.lanes = read.lanes ∧ b.ports = s.blk.ports)
      ∧ (pmGood m = true → 0x0A ≤ pmType m → After (.pilotMessageDiscard p bs) s fun b =>
          b.peek (ln p 0x0B8) = satAdd (s.blk.peek (ln p 0x0B8)) 1 ∧ b.lanes = read.lanes ∧ b.ports = s.blk.ports)
      ∧ (pmGood m = true → pmType m = 0 → After (.pilotIdle p bs) s fun b => b = read)
      ∧ (pmGood m = true → pmType m = 3 →
          let peer := fld (pmImm m) 3 0
          (s.blk.link p = 5 ∧ peer ≠ 4 ∧ peer ≠ 5 ∨ s.blk.link p = 4 ∧ (peer = 0 ∨ peer = 1 ∨ peer = 3) →
            After (.linkState p bs) s fun b => b.link p = 0 ∧ (b.port p).cause = 7)
          ∧ (s.blk.link p = 5 ∧ (peer = 4 ∨ peer = 5) ∨ s.blk.link p = 4 ∧ peer ≠ 0 ∧ peer ≠ 1 ∧ peer ≠ 3 ∨ s.blk.link p = 0 ∨ s.blk.link p = 3
              ∨ ((s.blk.link p = 1 ∨ s.blk.link p = 2) ∧ peer ≠ 0 ∧ peer ≠ 3) →
            After (.linkState p bs) s fun b => b = read)
          ∧ (s.blk.link p = 1 ∨ s.blk.link p = 2 → peer = 0 ∨ peer = 3 → s.blk.trainable p = true → s.blk.boot.restarting = false →
            After (.linkState p bs) s fun b => b.link p = 1 ∧ b.lstep p = 1))
      ∧ (pmGood m = true → pmType m = 5 →
          (s.blk.link p = 1 → After (.caps p bs) s fun b => b.regs = read.regs
            ∧ b.lanes = read.lanes.modify p fun x => { x with caps := some (fld (m.data.getD 0 0) 4 0) })
          ∧ (s.blk.link p ≠ 1 → After (.caps p bs) s fun b => b = read))
      ∧ (pmGood m = true → pmType m = 4 →
          let step := fld (pmImm m) 3 0
          let own := if s.blk.link p = 2 then 8 else s.blk.lstep p
          let goesOn := own ≤ step ∨ (step + 1 = own ∧ bit (pmImm m) 4 = true)
          (s.blk.link p = 1 → goesOn → l.done = false ∨ l.told = false → After (.train p bs) s fun b => b.regs = read.regs
            ∧ ∃ x, b.lanes[p]? = some x ∧ x.peerStep = step ∧ x.peerDone = bit (pmImm m) 4 ∧ x.done = l.done
              ∧ ∀ k y, l.lanes[k]? = some y →
                let a := applyTap y.taps ((m.data.getD 0 0).toNat / 16 ^ k % 16) (bitN (fld (m.data.getD 1 0) 15 0) k)
                x.lanes[k]? = some { y with taps := a.1 })
          ∧ (s.blk.link p = 2 → goesOn → After (.train p bs) s fun b => b.ports = s.blk.ports ∧ b.regs = read.regs)
          ∧ (s.blk.link p = 1 ∨ s.blk.link p = 2 → ¬goesOn → s.blk.trainable p = true →
              s.blk.boot.restarting = false → After (.train p bs) s fun b => b.link p = 1 ∧ b.lstep p = 1)
          ∧ (s.blk.link p ≠ 1 → s.blk.link p ≠ 2 → After (.train p bs) s fun b => b = read))

/-- Training (R390, R392 to R398, R400, R401, R404): a step ends for this end once its own condition holds, and the next begins once
both ends have finished it and this end has announced so. Rate and mode are the best that both ends allow; the lane order must be
straight or reversed, as the lanes' identities say; every lane must have found its marker four times in a row, and the codewords must be
clean; adaptation sweeps the presets, and every lane's figure of merit must reach the minimum; a step that passes its limit removes the
rate in use, and in step 1 ends the training; while the management core restarts no step ends (R428). Measurements are operands; a window
that ends while a request is due does not move the program, and ADAPT ends only once the program has ended (log entries 47, 72). -/
def Obligations.TrainingSteps : Prop :=
  (∀ (s : State) (p : Nat) (l : LaneSt), s.carries → s.blk.boot.restarting = false → s.blk.lanes[p]? = some l → s.blk.link p = 1 →
    let waits := fun (k : Nat) => l.peerStep < k ∨ (l.peerStep = k ∧ l.peerDone = false)
    let ready := fun (k : Nat) => k < l.peerStep ∨ (l.peerStep = k ∧ l.peerDone = true)
    let ends := fun (c : Instr) => After c s fun b => b.lstep p = s.blk.lstep p ∧ b.link p = 1 ∧ ∃ x, b.lanes[p]? = some x ∧ x.done = true
    let stays := fun (c : Instr) => After c s fun b => b = s.blk
    let rates := fun (gone : Nat) =>
      chooseRate (s.blk.rf (ln p 0x048) 63 61 &&& s.blk.fusedRates) (s.blk.ownModes p) gone (l.caps.getD 0)
    let failed := fun (cause : Nat) (b : Block) => b.link p = 0 ∧ (b.port p).cause = 0xA ∧ b.rf (ln p 0x040) 53 50 = cause
    let again := fun (c : Instr) (cause : Nat) => let gone := l.removed ||| 2 ^ s.blk.rf (ln p 0x040) 59 58
      (∀ r m, rates gone = (some r, m) → After c s fun b => b.lstep p = 2 ∧ b.link p = 1 ∧ b.rf (ln p 0x040) 59 58 = r
        ∧ ∃ x, b.lanes[p]? = some x ∧ x.removed = gone ∧ x.mode = m ∧ x.done = false)
      ∧ (∀ m, rates gone = (none, m) → After c s (failed cause))
    (l.done = false →
      (s.blk.lstep p = 1 → s.blk.pilotLock p = true → l.caps ≠ none → ends (.pilotStepEnd p))
      ∧ (s.blk.pilotLock p = false ∨ l.caps = none → stays (.pilotStepEnd p))
      ∧ (s.blk.lstep p = 2 → ends (.rateStepEnd p)) ∧ (s.blk.lstep p = 3 → ends (.detectStepEnd p))
      ∧ (s.blk.lstep p = 4 → ∀ (ids : Air) now, let found := (List.range 16).filterMap fun k => readIdentity (ids.getD k [])
          let order := found.map (·.1)
          (found.length = 16 → order = List.range 16 ∨ order = (List.range 16).map (fun k => 15 - k) →
            ends (.orderStepEnd p ids now) ∧ After (.orderStepEnd p ids now) s fun b => (b.rf (ln p 0x040) 57 57 = 0 ↔ order = List.range 16)
              ∧ ∀ k, k < 16 → (b.rf (ln p 0x040) (34 + k) (34 + k) = 1 ↔ (found.map (·.2)).getD k false = true))
          ∧ (found.length = 16 → order ≠ List.range 16 → order ≠ (List.range 16).map (fun k => 15 - k) →
            After (.orderStepEnd p ids now) s (failed 3))
          ∧ (found.length ≠ 16 → After (.orderStepEnd p ids now) s fun b => b = s.blk.clock now))
      ∧ (s.blk.lstep p = 5 → ∀ wins ehs, After (.fomWindowEnd p wins ehs) s fun b => b.lstep p = 5 ∧ ∃ x, b.lanes[p]? = some x
          ∧ (x.lanes = l.lanes.mapIdx fun k y =>
              let d := fomD (frameErrors y.peerLane ((wins.getD k []).map fun r => (r.1, if y.inverted then r.2.map flipLevel else r.2)))
              { y with measured := y.measured || !l.adapt.due, d, eh := min 255 (ehs.getD k 0), fom := 256 * d + min 255 (ehs.getD k 0) })
          ∧ (l.adapt.due = true → x.adapt = l.adapt)
          ∧ ∀ k, l.adapt.due = false → l.adapt.phase = .sweep k → k < 7 →
              x.adapt.phase = .sweep (k + 1) ∧ x.adapt.due = true ∧ x.adapt.codes = List.replicate 16 (k + 2))
      ∧ (s.blk.lstep p = 5 → ∀ sets, let all := fun (m : Nat) => ∀ y ∈ l.lanes, y.measured = true ∧ m ≤ y.fom
          let need := s.blk.fomMin p l.mode
          let quick := l.starch = true ∧ l.adapt.due = false ∧ ∀ y ∈ l.lanes, y.measured = true
          let best := need + s.blk.rf (ln p 0x050) 31 16
          (quick → all best → ends (.adaptStepEnd p sets) ∧ After (.adaptStepEnd p sets) s fun b => b.rf (ln p 0x040) 54 54 = 1)
          ∧ (quick → ¬all best → After (.adaptStepEnd p sets) s fun b => b.lstep p = 5 ∧ b.rf (ln p 0x090) 62 60 = 6
              ∧ ∃ x, b.lanes[p]? = some x ∧ x.starch = false ∧ x.adapt = Adapt.begin)
          ∧ (l.starch = false → l.adapt.phase = .ended → (all need → ends (.adaptStepEnd p sets)) ∧ (¬all need → again (.adaptStepEnd p sets) 4))
          ∧ (¬quick → l.adapt.phase ≠ .ended → stays (.adaptStepEnd p sets)))
      ∧ (s.blk.lstep p = 6 → (∀ y ∈ l.lanes, y.marker = true) → ends (.alignStepEnd p))
      ∧ (¬(∀ y ∈ l.lanes, y.marker = true) → stays (.alignStepEnd p))
      ∧ (let clean := 4 ≤ l.rx.groups ∧ (if l.rx.mode = 1 then 2 ^ 20 else 65536) ≤ l.rx.clean
         (s.blk.lstep p = 7 → clean → ends (.fecLockStepEnd p)) ∧ (¬clean → stays (.fecLockStepEnd p))))
    ∧ (s.blk.lstep p = 6 → ∀ air mark now, After (.markerCodeword p air mark now) s fun b => b.regs = s.blk.regs ∧ ∃ x, b.lanes[p]? = some x
        ∧ ∀ k y, l.lanes[k]? = some y →
          let levels := if y.inverted then (mark.getD k []).map flipLevel else mark.getD k []
          x.lanes[k]? = some (if markerHere l.mode y.peerLane y.off levels = true
            then { y with run := y.run + 1, marker := y.marker || decide (3 ≤ y.run) } else { y with run := 0 }))
    ∧ (l.powered = true → ∀ n now,
        (waits (s.blk.lstep p) ∨ l.done = false → After (.pilotMessageSend p 4 n now) s fun b => b.lstep p = s.blk.lstep p ∧ b.link p = 1
          ∧ ∃ x m, b.lanes[p]? = some x ∧ x.wire = [m] ∧ x.told = l.done ∧ x.done = l.done ∧ pmType m = 4
            ∧ fld (pmImm m) 3 0 = s.blk.lstep p ∧ bit (pmImm m) 4 = l.done)
        ∧ (ready (s.blk.lstep p) → l.done = true → let k := s.blk.lstep p
          (1 < k → k < 7 → After (.pilotMessageSend p 4 n now) s fun b => b.lstep p = k + 1 ∧ b.link p = 1)
          ∧ (k = 7 → After (.pilotMessageSend p 4 n now) s fun b => b.link p = 2)
          ∧ (k = 1 → (∀ r m, rates l.removed = (some r, m) → After (.pilotMessageSend p 4 n now) s fun b => b.lstep p = 2 ∧ b.link p = 1
                ∧ b.rf (ln p 0x040) 59 58 = r ∧ ∃ x, b.lanes[p]? = some x ∧ x.mode = m)
              ∧ (∀ m, rates l.removed = (none, m) → After (.pilotMessageSend p 4 n now) s (failed 7)))))
    ∧ (s.blk.lstep p = 1 → After (.trainingStepTimeout p) s (failed (if s.blk.pilotLock p then 8 else 1)))
    ∧ ∀ x ∈ [(2, 8), (3, 2), (4, 3), (5, 4), (6, 5), (7, 6)], s.blk.lstep p = x.1 → again (.trainingStepTimeout p) x.2)
  ∧ (∀ (s : State) (p : Nat), s.carries → s.blk.boot.restarting = true →
      ∀ c ∈ [Instr.pilotStepEnd p, .rateStepEnd p, .detectStepEnd p, .alignStepEnd p, .fecLockStepEnd p, .trainingStepTimeout p],
        After c s fun b => b = s.blk)
  ∧ ∀ k step, k < 16 → step < 16 → readIdentity (trainFrame k step) = some (k, false)
      ∧ readIdentity ((trainFrame k step).map flipLevel) = some (k, true)

/-- The seam (R409 to R414, R437, Tables 10.5, 10.9, 10.11): this end's SEAM tells its chip, port, seal and versions; a peer's is
recorded and judged by the first line that applies; the link delay is measured by messages that carry their times, 256 of them, and the
mean and the spread are shown; a port that hears no SEAM has the result NO_SEAM, one whose check fails at either end is quarantined, and
one whose ends agree enters INIT once no packet of its last session is left. The clock of its messages is their operand (log entries 12,
47). -/
def Obligations.SeamCheck : Prop :=
  ∀ (s : State) (p : Nat) (l : LaneSt), s.carries → s.blk.lanes[p]? = some l → s.blk.link p = 2 →
    let ver := s.blk.rf (ln p 0x088) 59 52
    (l.seen = none → After (.noSeamTimeout p) s fun b => b.rf (ln p 0x088) 63 60 = 1 ∧ b.link p = 3)
    ∧ (l.seen ≠ none → After (.noSeamTimeout p) s fun b => b = s.blk)
    ∧ (l.powered = true → ∀ n now, After (.pilotMessageSend p 6 n now) s fun b => ∃ x m, b.lanes[p]? = some x ∧ x.wire = [m] ∧ pmType m = 6
        ∧ fld (m.data.getD 0 0) 63 49 = s.blk.chipId % 2 ^ 15 ∧ fld (m.data.getD 0 0) 48 46 = p % 8
        ∧ fld (m.data.getD 0 0) 45 44 = s.blk.ownModes p % 4 ∧ fld (m.data.getD 1 0) 7 0 = 3
        ∧ fld (m.data.getD 2 0) 63 49 = fld (s.blk.peek wSeal) 63 49)
    ∧ (∀ now, let free := l.flights.length < 256 ∧ ∀ k t, l.t1 = some (k, t) → t + 3200000 ≤ now
        (l.powered = true → free → After (.delayReqSend p now) s fun b => b.time.now = max s.blk.time.now now ∧ b.ports = s.blk.ports
          ∧ b.lanes = s.blk.lanes.modify p fun x =>
              { x.sendPilot [mkPilot 8 (l.asked % 256) []] with asked := x.asked + 1, t1 := some (l.asked % 256, now) })
        ∧ (¬free → After (.delayReqSend p now) s fun b => b = s.blk))
    ∧ ∀ (bs : List PilotBlock) (m : PilotMsg), s.blk.pilotOn p = true → (s.blk.pilotTake p bs).2 = some m → pmGood m = true →
      let read := (s.blk.pilotTake p bs).1
      let imm := pmImm m
      (pmType m = 8 → ∀ t2 t3, After (.delayReq p bs t2 t3) s fun b => b.time.now = max s.blk.time.now t3 ∧ b.ports = s.blk.ports
        ∧ b.lanes = read.lanes.modify p fun x => x.sendPilot [mkPilot 9 (fld imm 7 0) [word t2, word t3]])
      ∧ (pmType m = 9 → ∀ t4,
        (∀ k t1, l.t1 = some (k, t1) → fld imm 7 0 = k →
          let all := l.flights ++ [(t4 - t1) - subMod 64 (m.data.getD 1 0).toNat (m.data.getD 0 0).toNat]
          After (.delayResp p bs t4) s fun b => (l.flights.length < 255 → b.ports = s.blk.ports
              ∧ ∃ x, b.lanes[p]? = some x ∧ x.t1 = none ∧ x.flights = all)
            ∧ (255 ≤ l.flights.length → b.rf (ln p 0x070) 63 63 = 1
              ∧ b.rf (ln p 0x070) 31 0 = min 0xFFFFFFFF (all.sum / 512)
              ∧ b.rf (ln p 0x070) 47 32 = min 0xFFFF ((all.foldl max 0 - all.foldl min (all.getD 0 0)) / 2)
              ∧ b.rf (ln p 0x090) 31 0 = min 0xFFFFFFFF (all.sum / 512 + if l.mode = 1 then 1200 else 2240)))
        ∧ ((∀ k t1, l.t1 = some (k, t1) → fld imm 7 0 ≠ k) → After (.delayResp p bs t4) s fun b =>
            b.ports = s.blk.ports ∧ b.regs = read.regs ∧ b.time = s.blk.time))
      ∧ (pmType m = 6 →
        let d := fun (i : Nat) => m.data.getD i 0
        let v := bitLen 64 (3 &&& (d 1).toNat)
        let code := if fld (d 2) 63 49 ≠ fld (s.blk.peek wSeal) 63 49 then 2 else if fld (d 0) 63 49 ≠ (s.blk.expected p).1 then 3
          else if fld (d 0) 48 46 ≠ (s.blk.expected p).2 then 4 else if v = 0 then 5 else if v = 1 ∧ l.mode = 2 then 6 else 0
        After (.seam p bs) s fun b => b.peek (ln p 0x078) = d 0 ∧ b.peek (ln p 0x080) = d 1 ∧ b.rf (ln p 0x088) 59 52 = v
          ∧ (l.result = none → l.seen = none → code ≠ 0 → b.link p = 3 ∧ b.rf (ln p 0x088) 63 60 = code)
          ∧ (l.result = none → l.seen = none → code = 0 → 256 ≤ l.flights.length →
              (s.blk.rf (ln p 0x070) 31 0 ≤ 1600000 → b.rf (ln p 0x088) 63 60 = 0)
              ∧ (1600000 < s.blk.rf (ln p 0x070) 31 0 → b.link p = 3 ∧ b.rf (ln p 0x088) 63 60 = 7))
          ∧ (l.result = none → l.seen = none → code = 0 → l.flights.length < 256 → b.link p = 2))
      ∧ (pmType m = 7 → l.result = some 0 →
        let left := s.blk.oldGone p
        (fld imm 3 0 ≠ 0 ∨ fld imm 11 4 ≠ ver → After (.seamResult p bs) s fun b => b.link p = 3 ∧ (b.port p).n = (s.blk.port p).n)
        ∧ (fld imm 3 0 = 0 → fld imm 11 4 = ver → 256 ≤ l.flights.length → left →
            After (.seamResult p bs) s fun b => b.link p = 4 ∧ (b.port p).n = 0 ∧ (b.port p).e = 0 ∧ (b.port p).mode = l.mode
              ∧ (b.port p).version = ver ∧ (b.port p).rxLimit = (s.blk.port p).limits)
        ∧ (fld imm 3 0 = 0 → fld imm 11 4 = ver → l.flights.length < 256 ∨ ¬left →
            After (.seamResult p bs) s fun b => b.ports = s.blk.ports))
      ∧ (pmType m = 7 → l.result = none → (fld imm 3 0 ≠ 0 → After (.seamResult p bs) s fun b => b.link p = 3)
        ∧ (fld imm 3 0 = 0 → After (.seamResult p bs) s fun b => b.ports = s.blk.ports))

/-- Fabric time (R388, R389, R436, R438, R468, R478, R480, R481): the first TICK after a TIME locks the chip to its parent's index; a
TICK of the parent's port resets the count of missed ones, one of another port does nothing; TIME carries the hop count, and, before the
lock, chooses the parent, by the fewest hops and the lowest number, and carries the time itself; a chip that loses its parent takes the best of the ports that qualify, or goes on in holdover, and a sealed master
that had yielded takes its role back; one that waited in vain for time, its ports settled, becomes master again where its seal makes it so.
The order of TIME
and TICK at a lock is the model's reading (log entry 48). -/
def Obligations.FabricTime : Prop :=
  ∀ s : State, s.carries → s.blk.isMaster = false →
    let parent := s.blk.rf wTimeStatus 60 58
    (∀ (p now : Nat) (bs : List PilotBlock) (m : PilotMsg), s.blk.pilotOn p = true → (s.blk.pilotTake p bs).2 = some m → pmGood m = true →
      let read := (s.blk.pilotTake p bs).1
      (pmType m = 1 → s.blk.timeOk p = true → parent = p →
        (s.blk.locked = false → s.blk.time.timeSet = true → After (.pilotTick p bs now) s fun b => b.locked = true
          ∧ b.time.aligned = true ∧ b.time.tick = fld (m.data.getD 0 0) 47 0
          ∧ b.time.edge = ((now : Int) - fld (pmImm m) 11 0 - s.blk.pilotDelay p).toNat)
        ∧ (s.blk.locked = false → s.blk.time.timeSet = false → After (.pilotTick p bs now) s fun b => b.locked = false
          ∧ b.time.tick = s.blk.time.tick)
        ∧ (s.blk.locked = true → After (.pilotTick p bs now) s fun b => b.locked = true ∧ b.time.missed = 0
          ∧ b.time.now = max s.blk.time.now now ∧ b.time.tick = s.blk.time.tick))
      ∧ (pmType m = 1 → s.blk.timeOk p = false ∨ parent ≠ p → After (.pilotTick p bs now) s fun b => b = read)
      ∧ (pmType m = 2 → s.blk.timeOk p = true → parent = p →
        s.blk.locked = true → s.blk.rf wTimeStatus 62 62 = 0 → After (.pilotTime p bs now) s fun b =>
          b.rf wTimeStatus 57 50 = min 255 (fld (pmImm m) 7 0 + 1) ∧ b.locked = true ∧ b.time.now = max s.blk.time.now now)
      ∧ (pmType m = 2 → s.blk.timeOk p = true → ∀ q,
          { s.blk with time := { s.blk.time with hops := s.blk.time.hops.set p (fld (pmImm m) 7 0) } }.bestParent = some q →
          (s.blk.locked = false → q ≠ parent → After (.pilotTime p bs now) s fun b =>
            b.locked = false ∧ b.rf wTimeStatus 60 58 = q ∧ b.time.timeSet = false)
          ∧ (s.blk.locked = false → q = parent → q = p → After (.pilotTime p bs now) s fun b => b.locked = false ∧ b.time.timeSet = true
            ∧ b.time.now = ((m.data.getD 0 0).toNat + s.blk.rf (ln p 0x070) 31 0) % 2 ^ 64)
          ∧ (s.blk.locked = true → s.blk.rf wTimeStatus 62 62 = 1 → After (.pilotTime p bs now) s fun b =>
            b.rf wTimeStatus 60 58 = q ∧ b.rf wTimeStatus 62 62 = 0))
      ∧ (pmType m = 2 → s.blk.timeOk p = false → After (.pilotTime p bs now) s fun b => b = read))
    ∧ (∀ missed, s.blk.locked = true → parent < 6 → s.blk.timeOk parent = false ∨ missed = true →
      let others := { s.blk with time := { s.blk.time with hops := s.blk.time.hops.set parent 255 } }.bestParent
      (∀ q, others = some q → After (.parentLoss missed) s fun b => b.rf wTimeStatus 62 62 = 0 ∧ b.rf wTimeStatus 60 58 = q
        ∧ b.rf wTimeStatus 57 50 = min 255 (s.blk.time.hops.getD q 255 + 1) ∧ b.time.tick = s.blk.time.tick
        ∧ s.blk.qualifies q = true ∧ q ≠ parent ∧ ∀ k, k < 6 → k ≠ parent → s.blk.qualifies k = true →
          s.blk.time.hops.getD q 255 ≤ s.blk.time.hops.getD k 255)
      ∧ (others = none → s.blk.rf wTimeStatus 49 49 = 0 → After (.parentLoss missed) s fun b => b.rf wTimeStatus 62 62 = 1
        ∧ b.rf wTimeStatus 60 58 = 7 ∧ b.rf wTimeStatus 57 50 = 255 ∧ b.time.tick = s.blk.time.tick)
      ∧ (others = none → s.blk.rf wTimeStatus 49 49 = 1 → After (.parentLoss missed) s fun b => b.isMaster = true
        ∧ b.rf wTimeStatus 57 50 = 0))
    ∧ (∀ missed, s.blk.locked = false ∨ 6 ≤ parent ∨ (s.blk.timeOk parent = true ∧ missed = false) →
      After (.parentLoss missed) s fun b => b = s.blk)
    ∧ (let waited := s.blk.time.waiting = true ∧ s.blk.locked = false ∧ 6 ≤ s.blk.bootStage ∧ ∀ p < 6, s.blk.settled p = true
      (waited → s.blk.rf wSealLeft 63 63 = 1 → s.blk.rf wSeal 48 34 = s.blk.chipId → s.blk.rf wTimeStatus 49 49 = 0 →
        After .tickMasterWaitEnd s fun b => b.locked = true ∧ b.isMaster = true ∧ b.time.waiting = false ∧ b.rf wTimeStatus 57 50 = 0)
      ∧ (¬waited → After .tickMasterWaitEnd s fun b => b = s.blk))

/-! ### Contexts, resets and the watchdog -/

/-- Writes of the CTXT page (R451 to R453, R420): the hold of the selected context, SOLO with its ACTIVE, and a request of a Rinse, which
is refused while one has not completed; none has an effect while the compute domain is down. That every write of CTXT.RINSE is refused
while DONE is 0 is the model's reading (log entry 25). -/
def Obligations.ContextRegisters : Prop :=
  ∀ (s : State) (v : Word), s.live →
    let hold := rpOk true (cx 0x048) v
    let solo := rpOk true (cx 0x058) v
    let rinse := rpOk true (cx 0x050) (setBit v 12 true)
    (s.blk.rst.down = true → ∀ c ∈ [Instr.contextHoldWrite hold v, .soloWrite solo v, .rinseRequest rinse v],
      After c s fun b => b.rst = s.blk.rst ∧ b.regs = s.blk.regs)
    ∧ (s.blk.rst.down = false →
      (let c := s.blk.rf (cx 0x040) 11 0
       After (.contextHoldWrite hold v) s fun b => fld (Tbl.get 0 b.rst.hold c) 0 0 = fld v 60 60
         ∧ (bit v 61 = true → fld (Tbl.get 0 b.rst.hold c) 1 1 = 0)
         ∧ (bit v 61 = false → fld (Tbl.get 0 b.rst.hold c) 1 1 = fld (Tbl.get 0 s.blk.rst.hold c) 1 1)
         ∧ (∀ k, k ≠ c → Tbl.get 0 b.rst.hold k = Tbl.get 0 s.blk.rst.hold k)
         ∧ b.rf (cx 0x040) 11 0 = (if s.blk.rf (cx 0x040) 63 63 = 1 then (c + 1) % 2 ^ 12 else c))
      ∧ (After (.soloWrite solo v) s fun b => b.rf (cx 0x058) 63 63 = fld v 63 63 ∧ b.rf (cx 0x058) 11 0 = fld v 11 0
          ∧ b.rf (cx 0x058) 62 62 = b2n (fld v 63 63 == 1 && s.blk.req.cmds.all fun k => k.ctx == fld v 11 0))
      ∧ (s.blk.rf (cx 0x050) 63 63 = 1 → After (.rinseRequest rinse v) s fun b => b.rf (cx 0x050) 63 63 = 0
          ∧ b.rf (cx 0x050) 11 0 = fld v 11 0 ∧ b.rst.rinseDue = some (fld v 11 0) ∧ b.rst.rinseStart = s.blk.time.tick)
      ∧ (s.blk.rf (cx 0x050) 63 63 = 0 → After (.rinseRequest rinse v) s fun b => b.rst = s.blk.rst
          ∧ b.peek (cx 0x050) = s.blk.peek (cx 0x050) ∧ b.rf (regAt 0x70 0x018) 63 60 = 2))

/-- A Rinse starts at the edge after its request and clears VALID of every entry, counter group and unshared profile its context owns
(R37, R454, R77); it completes at an edge once what it waits for has gone, and DONE sets (R455). Its first deadline resets engines, its
second the compute domain (R472). The LAST_LEVEL and cause of its deadlines are the model's reading (log entry 38). -/
def Obligations.RinseRuns : Prop :=
  ∀ (s : State), s.live →
    let r := s.blk.rst
    (∀ c, r.rinseDue = some c → r.down = false → r.draining = false → s.blk.time.tick ≠ r.rinseStart → s.blk.onEdge = true →
      After .rinseStart s fun b => b.rst.rinse = some c ∧ b.rst.rinsing = true ∧ b.rst.rinseDue = none
        ∧ b.rst.rinseStart = s.blk.time.tick
        ∧ (∀ i, fld (Tbl.get 0 b.segmap i) 56 45 = c → fld (Tbl.get 0 b.segmap i) 63 63 = 0)
        ∧ (∀ g, fld (Tbl.get 0 b.groups g) 56 45 = c → fld (Tbl.get 0 b.groups g) 63 63 = 0)
        ∧ ∀ k, k < 16 → let q := profileOf (s.blk.peek (mg 0 (0x800 + 8 * k))).toNat 0
            q.owner = c → q.shared = false → b.rf (mg 0 (0x800 + 8 * k)) 63 63 = 0)
    ∧ (r.rinseDue = none ∨ r.down = true ∨ r.draining = true ∨ s.blk.time.tick = r.rinseStart ∨ s.blk.onEdge = false →
      After .rinseStart s fun b => b.rst.rinse = r.rinse ∧ b.rst.rinseDue = r.rinseDue ∧ b.segmap = s.blk.segmap ∧ b.groups = s.blk.groups)
    ∧ (∀ c, r.rinse = some c → s.blk.rinseReady = true →
      After .rinseComplete s fun b => b.rf (cx 0x050) 63 63 = 1 ∧ b.rst.rinse = none ∧ b.rst.rinsing = false
        ∧ b.rf (cx 0x050) 47 32 = min 0xFFFF (s.blk.time.tick - r.rinseStart))
    ∧ (r.rinse = none ∨ s.blk.rinseReady = false → After .rinseComplete s fun b => b = s.blk)
    ∧ (let n := s.blk.time.tick - r.rinseStart
       let d := max 1 (s.blk.rf (rs 0x058) 63 48)
       (∀ c, r.rinse = some c → r.rinsing = true →
         (r.rinsePassed = 0 → d < n → After .rinseDeadline s fun b => b.rst.rinsePassed = 1 ∧ b.rst.rinse = some c
           ∧ b.rf (rs 0x048) 59 57 = 1 ∧ b.rf (rs 0x048) 56 53 = 3 ∧ b.rf (rs 0x048) 48 48 = 1 ∧ b.rf (cx 0x050) 61 61 = 1)
         ∧ (r.rinsePassed = 1 → 2 * d < n → r.level < 3 → After .rinseDeadline s fun b => b.rst.level = 3
           ∧ b.rst.rinse = none ∧ b.rst.down = true ∧ b.rf (rs 0x048) 56 53 = 3))
       ∧ (r.rinse = none ∨ r.rinsing = false ∨ (r.rinsePassed = 0 ∧ n ≤ d) ∨ (r.rinsePassed = 1 ∧ (n ≤ 2 * d ∨ 3 ≤ r.level)) →
         After .rinseDeadline s fun b => b = s.blk))

/-- An engine reset begins with the engine held and shown in RESET.STATUS, unless a reset is in progress (R458 to R460); it begins
by itself for an engine that has held one unit, or a sequencer that has not issued though a stream is ready, for more than HANG_KCYCLES
while AUTO_ENGINE allows it (R461), and ends with the known-answer run, which
decides whether the engine is good (R459, R460). Past its deadline it becomes a compute-domain reset (R472). That an engine turns good
again by passing its run is the model's reading (log entry 42). -/
def Obligations.EngineResets : Prop :=
  ∀ (s : State), s.live →
    let begun := fun (e cause : Nat) (b : Block) => b.rst.level = 2 ∧ e ∈ b.rst.engines ∧ b.phase = 1
      ∧ b.rf (rs 0x048) 59 57 = 2 ∧ b.rf (rs 0x048) 56 53 = cause ∧ b.rf (rs 0x048) 52 49 = e
    let refused := fun (b : Block) => b.rst = s.blk.rst ∧ b.rf (regAt 0x78 0x018) 63 60 = 2
    let seq := rpOk true (rs 0x040) (word (2 ^ 61 + 12))
    let reset := fun (e : Nat) => Instr.resetRequestEngine (rpOk true (rs 0x040) (word (2 ^ 61 + e % 16))) e
    let long := fun (now since : Nat) =>
      1024 * s.blk.rf (rs 0x050) 15 0 < (max s.blk.time.now now - since) * s.blk.rf (regAt 0x01 0x840) 51 40 / 16000
    let stuck := fun (e now : Nat) => (e < 12 ∧ (s.blk.engine e).held ≠ none ∧ long now (s.blk.engine e).since)
      ∨ (e = 12 ∧ ∃ st < 256, s.blk.foldReady st = true ∧ long now (max s.blk.fold.lastAt (s.blk.prog st).since))
    let auto := s.blk.rf (rs 0x050) 62 62 = 1 ∧ s.blk.rst.level < 2
    (s.blk.rst.level < 2 → (∀ e, e < 12 → After (reset e) s (begun e 1)) ∧ After (.sequencerReset seq) s (begun 12 1))
    ∧ (∀ e now, auto → stuck e now → After (.engineHung ⟨e, now⟩) s (begun e 2))
    ∧ (∀ e now, ¬auto ∨ ¬stuck e now → After (.engineHung ⟨e, now⟩) s fun b => b = s.blk.clock now)
    ∧ (2 ≤ s.blk.rst.level → (∀ e, e < 12 → After (reset e) s refused) ∧ After (.sequencerReset seq) s refused)
    ∧ (∀ e, 12 < e → e < 16 → After (reset e) s refused)
    ∧ (∀ e ok, e ∈ s.blk.rst.engines → After (.engineResetDone e ok) s fun b => e ∉ b.rst.engines
        ∧ (e < 12 → ok = false → bitN b.boot.failed e = true)
        ∧ (e < 12 → ok = true → bitN s.blk.boot.sramFailed e = false → bitN b.boot.failed e = false)
        ∧ (e = 12 → b.boot.seqGood = ok)
        ∧ ((∀ x ∈ s.blk.rst.engines, x = e) → s.blk.rst.level = 2 → b.rst.level = 0 ∧ b.phase = 0))
    ∧ (∀ e ok, e ∉ s.blk.rst.engines → After (.engineResetDone e ok) s fun b => b = s.blk)
    ∧ (s.blk.rst.level = 2 → s.blk.rst.engines ≠ [] → After .engineDeadline s fun b => b.rst.level = 3 ∧ b.rst.engines = []
        ∧ b.rf (rs 0x048) 56 53 = 4 ∧ b.rf (rs 0x048) 48 48 = 1)
    ∧ (s.blk.rst.level ≠ 2 ∨ s.blk.rst.engines = [] → After .engineDeadline s fun b => b = s.blk)

/-- A compute-domain reset (R49, R213, R287, R462 to R466): asked for, or begun by an error in control state, it takes the domain down
and drops its commands; drained, the domain's pages and the VALID bits of its maps are clear, its counters are not, fused-off banks and
the microcode in use show as before, and no lock is left; then it is held until RELEASE where HOLD is set. That RELEASE counts with LEVEL
0 alone (log entry 24), that the commands go at once while the maps stand until the drain ends, and STAGE 8 at once (log entry 39), which
accesses still drain (log entry 62) and the microcode version kept (log entry 65) are the model's readings and choices. -/
def Obligations.ComputeResets : Prop :=
  ∀ (s : State), s.live →
    let begun := fun (cause : Nat) (b : Block) => b.rst.level = 3 ∧ b.rst.down = true ∧ b.rst.draining = true ∧ b.req.cmds = []
      ∧ b.mangle.queue = [] ∧ b.peek wFeatAgreed = 1 ∧ b.rf (rs 0x048) 59 57 = 3 ∧ b.rf (rs 0x048) 56 53 = cause
      ∧ b.ctrs = s.blk.ctrs ∧ b.segmap = s.blk.segmap ∧ b.phase = 2 ∧ (s.blk.bootStage ≠ 0xF → b.rf wStartup 63 60 = 8)
    let compute := Instr.resetRequestCompute (rpOk true (rs 0x040) (word (2 * 2 ^ 61)))
    let release := Instr.resetRelease (rpOk true (rs 0x040) (word (2 ^ 60)))
    let busy := (∃ t ∈ s.blk.host.out, t.dead = false) ∨ (∃ t ∈ s.blk.host.waiting, s.blk.drains t = true)
      ∨ ∃ q ∈ s.blk.ports, ∃ f ∈ q.flits, f.spilled = true
    (s.blk.rst.level < 3 → After compute s (begun 1) ∧ After .controlPoison s (begun 6))
    ∧ (3 ≤ s.blk.rst.level → After .controlPoison s fun b => b = s.blk)
    ∧ (3 ≤ s.blk.rst.level → After compute s fun b => b.rst = s.blk.rst ∧ b.rf (regAt 0x78 0x018) 63 60 = 2)
    ∧ (s.blk.rst.level = 3 → s.blk.rst.draining = true → ¬busy →
        After .computeResetDrained s fun b => b.rst.draining = false ∧ b.rst.closed = true ∧ b.ctrs = s.blk.ctrs
          ∧ (∀ i, fld (Tbl.get 0 b.segmap i) 63 63 = 0) ∧ (∀ g, fld (Tbl.get 0 b.groups g) 63 63 = 0)
          ∧ b.peek (sg 0x040) = 0 ∧ b.peek (sg 0x070) = word s.blk.boot.fuseBanks
          ∧ (∀ e, e < 12 → b.rf (mg e 0x070) 31 0 = s.blk.boot.ucode.getD e 0 % 2 ^ 32) ∧ b.host.locks = []
          ∧ b.phase = if s.blk.rf (rs 0x050) 63 63 = 1 then 4 else 5)
    ∧ (s.blk.rst.level ≠ 3 ∨ s.blk.rst.draining = false ∨ busy → After .computeResetDrained s fun b =>
        b.rst = s.blk.rst ∧ b.host = s.blk.host ∧ b.segmap = s.blk.segmap ∧ (s.blk.phase ≠ 2 ∨ s.blk.rst.draining = false → b = s.blk)
        ∧ (s.blk.phase = 2 → s.blk.rst.draining = true → (∀ j ∈ s.blk.host.jobs, s.blk.isDump j.id = false) → b.phase = 3))
    ∧ (∀ v, s.blk.phase = 4 → bit v 63 = false → After (.registerWrite true (rs 0x050) ⟨v, .good⟩ (rpCheck (rs 0x050) v)) s fun b => b.phase = 5)
    ∧ (s.blk.phase = 4 → After release s fun b => b.phase = 5 ∧ b.rst = s.blk.rst)
    ∧ (s.blk.phase ≠ 4 → After release s fun b => b.regs = s.blk.regs ∧ b.rst = s.blk.rst)

/-- A block reset (R421, R422, R467): every port is down, both domains are at reset, time is unlocked and counts from 0; the key root
stays; STAGE shows 2, but where start-up has stopped, whose ports are then down with cause SOFTWARE. It follows a
compute-domain reset that passes its deadline, and one that passes its own asks for a cold reset (R472, R512). That counters and
maps are empty after it is the model's reading (log entry 40). -/
def Obligations.BlockResets : Prop :=
  ∀ (s : State), s.live →
    let begun := fun (cause : Nat) (b : Block) => b.rst.level = 4 ∧ b.rst.down = true ∧ b.rst.closed = true ∧ b.segmap = []
      ∧ b.ctrs = [] ∧ b.groups = [] ∧ b.keyRoot = s.blk.keyRoot ∧ (∀ q ∈ b.ports, q.st = 0) ∧ b.locked = false ∧ b.time.now = 0 ∧ b.time.tick = 0
      ∧ (s.blk.bootStage ≠ 0xF → b.bootStage = 2 ∧ b.rf wStartup 63 60 = 2)
      ∧ (s.blk.bootStage = 0xF → b.rf wStartup 63 60 = 0xF ∧ ∀ q ∈ b.ports, q.cause = 8)
      ∧ b.peek (sg 0x070) = word s.blk.boot.fuseBanks ∧ b.rf (rs 0x048) 59 57 = 4 ∧ b.rf (rs 0x048) 56 53 = cause
    let block := Instr.resetRequestBlock (rpOk true (rs 0x040) (word (3 * 2 ^ 61)))
    (s.blk.rst.level < 4 → After block s (begun 1))
    ∧ (4 ≤ s.blk.rst.level → After block s fun b => b.rst = s.blk.rst ∧ b.rf (regAt 0x78 0x018) 63 60 = 2)
    ∧ (s.blk.rst.level = 3 → s.blk.rst.draining = true → After .computeDeadline s (begun 5))
    ∧ (s.blk.rst.level ≠ 3 ∨ s.blk.rst.draining = false → After .computeDeadline s fun b => b = s.blk)
    ∧ (s.blk.rst.level = 4 → After .blockDeadline s fun b => b.rst.coldReq = true ∧ b.rst.level = 5 ∧ b.phase = 7
        ∧ b.rf (rs 0x048) 48 48 = 1 ∧ b.rf (rs 0x048) 56 53 = 8)
    ∧ (s.blk.rst.level ≠ 4 → After .blockDeadline s fun b => b = s.blk)

/-- The watchdog (R469, R532): only a kick of the running firmware counts, another writer's is counted with KIND 1; PERIOD_MS after the
last kick it bites and the core restarts, and the fourth quick bite in a row falls back to ROM; the restart ends, and the ports that it kept
from training train (R428, R458). -/
def Obligations.Watchdog : Prop :=
  ∀ (s : State), s.live →
    (∀ v : Word,
      (s.blk.boot.restarting = false → After (.watchdogKick true (rpWord (rs 0x088) v)) s fun b =>
        b.boot.kickAt = (if bit v 0 then (s.blk.time.now : Int) else s.blk.boot.kickAt)
        ∧ b.rf (rs 0x088) 31 16 = max 10 (min 10000 (fld v 31 16)))
      ∧ (s.blk.boot.restarting = true → After (.watchdogKick true (rpWord (rs 0x088) v)) s fun b => b = s.blk)
      ∧ After (.watchdogKick false (rpWord (rs 0x088) v)) s (fun b => b.boot = s.blk.boot ∧ b.peek (rs 0x088) = s.blk.peek (rs 0x088)
          ∧ (bit v 0 = true → b.rf (regAt 0x78 0x018) 63 60 = 1) ∧ (bit v 0 = false → b.regs = s.blk.regs)))
    ∧ (∀ now, let at_ := max s.blk.time.now now
        let bites := s.blk.boot.coreUp = true ∧ s.blk.boot.restarting = false
          ∧ s.blk.boot.kickAt + 16000000 * s.blk.rf (rs 0x088) 31 16 ≤ at_
        let n := if (at_ : Int) - s.blk.boot.startAt < 160000000000 then s.blk.boot.bites + 1 else 1
        (bites → After (.watchdogBite now) s fun b => b.boot.restarting = true
          ∧ b.peek (rs 0x090) = satAdd (s.blk.peek (rs 0x090)) 1
          ∧ (n < 4 → b.boot.bites = n ∧ b.boot.running = s.blk.boot.running)
          ∧ (4 ≤ n → b.boot.bites = 0 ∧ b.boot.running = (0, 0) ∧ b.rf (rs 0x088) 63 63 = 1))
        ∧ (¬bites → After (.watchdogBite now) s fun b => b = s.blk.clock now))
    ∧ (s.blk.boot.restarting = true → After .managementRestartDone s fun b => b.boot.restarting = false ∧ b.boot.trainDue = []
        ∧ ∀ p, p < s.blk.ports.length → s.blk.trainable p = true → s.blk.link p = 1 ∨ (p ∈ s.blk.boot.trainDue ∧ s.blk.link p = 0) →
          b.link p = 1 ∧ b.lstep p = 1)
    ∧ (s.blk.boot.restarting = false → After .managementRestartDone s fun b => b = s.blk)

/-! ### Firmware, the seal, power, clock and time -/

/-- A load of a firmware image (R37, R426, R427, R428): a request starts the read of its header, the end of its check shows DONE, FAILED
and why, and stages an image that passes; an activation is armed for a tick to come and restarts the core on the staged image at that
edge. The refusal of a second load is the model's choice (log entry 32). -/
def Obligations.FirmwareLoads : Prop :=
  ∀ (s : State), s.live →
    (s.blk.boot.loading = false → ∀ v : Word, After (.fwLoadRequest (rpOk true (regAt 0x01 0x808) (setBit v 0 true)) v) s fun b => b.boot.loading = true
        ∧ b.rf (regAt 0x01 0x808) 63 63 = 0 ∧ b.boot.staged = s.blk.boot.staged ∧ b.rf (regAt 0x01 0x808) 51 12 = fld v 51 12
        ∧ ∃ j ∈ b.host.jobs, j.kind = .fwImage false ∧ j.len = 512 ∧ j.id = s.blk.host.nextJob)
    ∧ (s.blk.boot.loading = true → ∀ v : Word, After (.fwLoadRequest (rpOk true (regAt 0x01 0x808) (setBit v 0 true)) v) s fun b => b.boot = s.blk.boot
        ∧ b.peek (regAt 0x01 0x808) = s.blk.peek (regAt 0x01 0x808) ∧ b.rf (regAt 0x01 0x018) 63 60 = 2)
    ∧ (s.blk.boot.loading = true → s.blk.boot.imageRead = true → ∀ digest sig,
        let code := s.blk.imageCode 1 s.blk.boot.image s.blk.boot.imageBad digest sig
        (code = 0 → After (.fwLoadDone digest sig) s fun b => b.rf (regAt 0x01 0x808) 63 62 = 2 ∧ b.boot.loading = false
          ∧ b.boot.staged = some (imageVersion s.blk.boot.image, s.blk.boot.image))
        ∧ (code ≠ 0 → After (.fwLoadDone digest sig) s fun b => b.rf (regAt 0x01 0x808) 63 62 = 3
          ∧ b.rf (regAt 0x01 0x808) 61 58 = code ∧ b.boot.staged = s.blk.boot.staged ∧ b.boot.loading = false))
    ∧ (s.blk.boot.loading = false ∨ s.blk.boot.imageRead = false → ∀ digest sig, After (.fwLoadDone digest sig) s fun b => b = s.blk)
    ∧ (∀ v : Word, (s.blk.boot.staged ≠ none → s.blk.time.tick < fld v 47 0 →
          After (.fwActivateWrite (rpOk true (regAt 0x01 0x810) v) v) s fun b => b.rf (regAt 0x01 0x810) 63 63 = 1 ∧ b.rf (regAt 0x01 0x810) 47 0 = fld v 47 0)
        ∧ (s.blk.boot.staged = none ∨ fld v 47 0 ≤ s.blk.time.tick →
          After (.fwActivateWrite (rpOk true (regAt 0x01 0x810) v) v) s fun b => b.peek (regAt 0x01 0x810) = s.blk.peek (regAt 0x01 0x810)
            ∧ b.rf (regAt 0x01 0x018) 63 60 = 2))
    ∧ (∀ digest sig, s.blk.onEdge = false → After (.fwActivation digest sig) s fun b => b = s.blk)
    ∧ ∀ v img, s.blk.onEdge = true → s.blk.boot.staged = some (v, img) → s.blk.rf (regAt 0x01 0x810) 63 63 = 1 →
        s.blk.rf (regAt 0x01 0x810) 47 0 ≤ s.blk.time.tick → ∀ digest sig,
        After (.fwActivation digest sig) s fun b => b.boot.running = (2, v) ∧ b.boot.restarting = true
          ∧ b.rf (regAt 0x01 0x810) 63 63 = 0 ∧ b.rf wStartup 42 40 = 2

/-- A broadcast of the staged image (R429, R430): its start, its chunks in order, round after round, and its end, which gives every
chip the tick of the activation; an arriving chunk is kept once, one of another session starts over; at its tick the assembly runs where
it is whole and passes its check, and else FW_LOAD shows the failure. The refusal of a second broadcast, and of one with nothing staged,
is the model's choice (log entry 32). -/
def Obligations.FirmwareBroadcast : Prop :=
  ∀ (s : State), s.carries →
    let o := s.blk.boot
    let session := s.blk.rf (regAt 0x01 0x820) 61 46
    let rounds := max 1 (s.blk.rf (regAt 0x01 0x820) 45 44)
    (o.staged ≠ none → o.bcast = none → ∀ v : Word, After (.fwBcastStart (rpOk true (regAt 0x01 0x820) (setBit v 63 true)) v) s fun b =>
        b.boot.bcast = some (0, 0) ∧ b.rf (regAt 0x01 0x820) 62 62 = 1 ∧ b.rf (regAt 0x01 0x820) 61 44 = fld v 61 44)
    ∧ (o.staged = none ∨ o.bcast ≠ none → ∀ v : Word, After (.fwBcastStart (rpOk true (regAt 0x01 0x820) (setBit v 63 true)) v) s fun b =>
        b.boot = o ∧ b.peek (regAt 0x01 0x820) = s.blk.peek (regAt 0x01 0x820) ∧ b.rf (regAt 0x01 0x018) 63 60 = 2)
    ∧ (o.bcast = none ∨ o.staged = none → After .fwChunkSend s fun b => b = s.blk)
    ∧ (∀ round k v img, o.bcast = some (round, k) → o.staged = some (v, img) →
        let n := (img.length + 2047) / 2048
        (round < rounds → After .fwChunkSend s fun b =>
          b.boot.bcast = some (if k + 1 = n then (round + 1, 0) else (round, k + 1))
          ∧ Sends s.blk b fun q => hOp q.hdr = 0x31 ∧ fld q.hdr 61 46 = session ∧ fld q.hdr 45 36 = k % 2 ^ 10
              ∧ q.data = bytesSlots (slice img (2048 * k) 2048))
        ∧ (rounds ≤ round → After .fwChunkSend s fun b => b.boot.bcast = none ∧ b.rf (regAt 0x01 0x820) 62 62 = 0
          ∧ Sends s.blk b fun q => hOp q.hdr = 0x32 ∧ fld q.hdr 61 46 = session ∧ fld q.hdr 45 36 = n % 2 ^ 10
              ∧ ofBytes (slice (slotsBytes q.data) 0 6) = s.blk.rf (regAt 0x01 0x810) 47 0))
    ∧ (∀ p : Packet, s.blk.epochOk p →
        (hOp p.hdr = 0x31 →
          let mine := o.session = some (fld p.hdr 61 46)
          let old := if mine then o.chunks else []
          After (.fwChunk p) s fun b => b.boot.session = some (fld p.hdr 61 46)
            ∧ (p.bad = true ∨ (∃ x ∈ old, x.1 = fld p.hdr 45 36) → b.boot.chunks = old)
            ∧ (p.bad = false → (∀ x ∈ old, x.1 ≠ fld p.hdr 45 36) → b.boot.chunks = old ++ [(fld p.hdr 45 36, slotsBytes p.data)]))
        ∧ (hOp p.hdr = 0x32 → p.bad = false → After (.fwActivate p) s fun b => b.boot.session = some (fld p.hdr 61 46)
          ∧ b.boot.recvDue = some (max (ofBytes (slice (slotsBytes p.data) 0 6)) (s.blk.time.tick + 1), fld p.hdr 45 36, ofBytes (slice (slotsBytes p.data) 8 4)))
        ∧ (hOp p.hdr = 0x32 → p.bad = true → After (.fwActivate p) s fun b => b.boot = o))
    ∧ ∀ tick n len digest sig, s.blk.onEdge = true → o.recvDue = some (tick, n, len) → tick ≤ s.blk.time.tick →
        o.staged = none ∨ s.blk.rf (regAt 0x01 0x810) 63 63 = 0 ∨ s.blk.time.tick < s.blk.rf (regAt 0x01 0x810) 47 0 →
        (∀ img, s.blk.assembly n len = some img → s.blk.imageCode 1 img false digest sig = 0 →
          After (.fwActivation digest sig) s fun b => b.boot.running = (3, imageVersion img) ∧ b.boot.restarting = true
            ∧ b.boot.recvDue = none)
        ∧ ((∀ img, s.blk.assembly n len = some img → s.blk.imageCode 1 img false digest sig ≠ 0) →
          After (.fwActivation digest sig) s fun b => b.boot.running = o.running ∧ b.rf (regAt 0x01 0x808) 62 58 = 0x17
            ∧ b.boot.recvDue = none)

/-- The seal, the agreed features and the variant fuse (R432 to R435, R446, R545): the seal that stands already changes nothing, one
inside its own topology is taken while writes are left, and start-up goes on; agreed features are a subset of those offered; the variant
code is written once. The KIND of each refusal is the model's reading (log entry 29). -/
def Obligations.SealAndFeatures : Prop :=
  ∀ (s : State) (v : Word), s.live →
    (let w := v &&& word sealMask
     let same := s.blk.rf wSealLeft 63 63 = 1 ∧ w = s.blk.peek wSeal
     let left := s.blk.rf wSealLeft 2 0
     (same → After (.topoSealWrite (rpOk true wSeal v) v) s fun b => b.regs = s.blk.regs ∧ b.ports = s.blk.ports)
     ∧ (¬same → s.blk.sealRefused w = false → left ≠ 0 →
        After (.topoSealWrite (rpOk true wSeal v) v) s fun b => b.peek wSeal = w ∧ b.rf wSealLeft 63 63 = 1 ∧ b.rf wSealLeft 2 0 + 1 = left
          ∧ (s.blk.bootStage = 4 ∨ s.blk.bootStage = 5 → b.bootStage = 6))
     ∧ (¬same → s.blk.sealRefused w = true →
        After (.topoSealWrite (rpOk true wSeal v) v) s fun b => b.peek wSeal = s.blk.peek wSeal ∧ b.peek wSealLeft = s.blk.peek wSealLeft
          ∧ b.rf (regAt 0x02 0x018) 63 60 = 2)
     ∧ (¬same → s.blk.sealRefused w = false → left = 0 →
        After (.topoSealWrite (rpOk true wSeal v) v) s fun b => b.peek wSeal = s.blk.peek wSeal ∧ b.peek wSealLeft = s.blk.peek wSealLeft
          ∧ b.rf (regAt 0x02 0x018) 63 60 = 3))
    ∧ (let off := (s.blk.peek wFeatOffered).toNat
       let on := ∃ k, k < 4 ∧ s.blk.peek (fo (0x048 + 8 * k)) ≠ 0
       (subsetBits v.toNat off = true → bit v 0 = true → ¬on →
          After (.featuresAgreedWrite (rpOk true wFeatAgreed v) v) s fun b => b.peek wFeatAgreed = v)
       ∧ (subsetBits v.toNat off = false ∨ bit v 0 = false ∨ on →
          After (.featuresAgreedWrite (rpOk true wFeatAgreed v) v) s fun b => b.peek wFeatAgreed = s.blk.peek wFeatAgreed
            ∧ b.rf (regAt 0x00 0x018) 63 60 = 2))
    ∧ (fld v 3 0 ≤ 2 →
       (s.blk.boot.fuseVariant = none → After (.variantFusedWrite (rpOk true wCode v) v) s fun b => b.boot.fuseVariant = some (fld v 3 0)
          ∧ b.rf wCode 8 8 = 0 ∧ b.rf wCode 3 0 = fld v 3 0)
       ∧ (∀ c, s.blk.boot.fuseVariant = some c → After (.variantFusedWrite (rpOk true wCode v) v) s fun b => b.boot = s.blk.boot
          ∧ b.rf (regAt 0x01 0x018) 63 60 = 3))
    ∧ (2 < fld v 3 0 → After (.variantFusedWrite (rpOk true wCode v) v) s fun b => b.boot = s.blk.boot ∧ b.rf (regAt 0x01 0x018) 63 60 = 2)

/-- Power, clock and the tick's registers (R8, R436, R481, R482, R524, R525, R530): a write of PORT_POWER powers ports down only from DOWN
or QUARANTINE, and begins the power-up of others, which is complete later; a clock request is a multiple of 100 MHz from 1,200 on, and
CLAMPED tells that it lies above the fused limit; only a master takes a period; BECOME_MASTER makes one. The refusal of the whole
PORT_POWER write and the KIND of the refusals are the model's reading (log entries 27, 29). -/
def Obligations.PowerClockTime : Prop :=
  ∀ (s : State) (v : Word), s.live →
    let power := rpOk true (regAt 0x01 0x850) v
    (let old := s.blk.peek (regAt 0x01 0x850)
     let off := fun (p : Nat) => p < 6 ∧ bit v p = true ∧ bit old p = false
     let may := fun (p : Nat) => (s.blk.link p = 0 ∨ s.blk.link p = 3) ∧ s.blk.rf (ln p 0x098) 63 61 = 0
     ∀ c ∈ [Instr.portPowerOff power v, .portPowerOn power v],
       ((∀ p, off p → may p) → After c s fun b => b.rf (regAt 0x01 0x850) 5 0 = fld v 5 0
          ∧ (∀ p, off p → b.rf (regAt 0x01 0x850) (8 + p) (8 + p) = 0 ∧ b.link p = 0
            ∧ ∀ l, s.blk.lanes[p]? = some l → ∃ x, b.lanes[p]? = some x ∧ x.powered = false ∧ x.powering = false)
          ∧ ∀ p l, p < 6 → bit old p = true → bit v p = false → s.blk.lanes[p]? = some l → b.lanes[p]? = some { l with powering := true })
       ∧ (∀ p, off p → ¬may p → After c s fun b => b.peek (regAt 0x01 0x850) = old ∧ b.lanes = s.blk.lanes ∧ b.ports = s.blk.ports
          ∧ b.rf (regAt 0x01 0x018) 63 60 = 2))
    ∧ (∀ p, p < 6 → (s.blk.lane p).powering = true → After (.portPowerUpDone p) s fun b =>
        b.rf (regAt 0x01 0x850) (8 + p) (8 + p) = 1
        ∧ b.lanes = s.blk.lanes.modify p fun l => { l with powered := true, powering := false })
    ∧ (∀ p, (s.blk.lane p).powering = false → After (.portPowerUpDone p) s fun b => b = s.blk)
    ∧ (fld v 63 52 % 100 = 0 → 1200 ≤ fld v 63 52 → After (.clockRequestWrite (rpOk true wClock v) v) s fun b => b.rf wClock 63 52 = fld v 63 52
        ∧ (s.blk.fusedMhz < fld v 63 52 → b.rf wClock 35 35 = 1))
    ∧ (fld v 63 52 % 100 ≠ 0 ∨ fld v 63 52 < 1200 → After (.clockRequestWrite (rpOk true wClock v) v) s fun b => b.peek wClock = s.blk.peek wClock
        ∧ b.rf (regAt 0x01 0x018) 63 60 = 2)
    ∧ (s.blk.isMaster = true → periodOk (fld v 20 0) = true → After (.timePeriodWrite (rpOk true wPeriod v) v) s fun b =>
        b.time.periodDue = some (fld v 20 0) ∧ b.regs = s.blk.regs)
    ∧ (s.blk.isMaster = false ∨ periodOk (fld v 20 0) = false → After (.timePeriodWrite (rpOk true wPeriod v) v) s fun b => b.time = s.blk.time
        ∧ b.peek wPeriod = s.blk.peek wPeriod ∧ b.rf (regAt 0x03 0x018) 63 60 = 2)
    ∧ (bit v 63 = true → After (.becomeMasterWrite (rpOk true (regAt 0x03 0x060) v) v) s fun b => b.isMaster = true
        ∧ (s.blk.isMaster = false → b.locked = true ∧ b.rf wTimeStatus 57 50 = 0))
    ∧ (bit v 63 = false → After (.becomeMasterWrite (rpOk true (regAt 0x03 0x060) v) v) s fun b => b.rf (regAt 0x03 0x060) 63 63 = 0
        ∧ (s.blk.isMaster = false → b.isMaster = true → s.blk.rf wSeal 48 34 = s.blk.chipId))

/-! ### Counters, trace, snapshot, crease and the collector -/

/-- Clears, marks and snapshots (R37, R486, R491, R495, R497): a clear is named and takes place at the next edge, where every counter it
covers is zero and no other register changes; a mark is traced; a snapshot is asked for while none runs and taken at the edge after. The
record limit of a tick and the length of the queue are the model's reading (log entries 54, 76). -/
def Obligations.Observation : Prop :=
  ∀ (s : State) (v : Word), s.live →
    (fld v 3 0 ≠ 0 → After (.ctrsClearWrite (rpOk true (cn 0x040) v) v) s fun b => b.rf (cn 0x040) 63 63 = 1
        ∧ b.obs.clearDue = s.blk.obs.clearDue ||| fld v 3 0 ∧ (s.blk.obs.clearDue = 0 → b.obs.clearTick = s.blk.time.tick))
    ∧ (fld v 3 0 = 0 → After (.ctrsClearWrite (rpOk true (cn 0x040) v) v) s fun b => b.obs = s.blk.obs ∧ b.regs = s.blk.regs)
    ∧ (s.blk.obs.clearDue ≠ 0 → s.blk.time.tick ≠ s.blk.obs.clearTick → s.blk.onEdge = true →
        After .counterClear s fun b => b.rf (cn 0x040) 63 63 = 0 ∧ b.obs.clearDue = 0
          ∧ (∀ w, clearsWord s.blk.obs.clearDue w = true → b.peek w = 0)
          ∧ ∀ w, clearsWord s.blk.obs.clearDue w = false → w ≠ cn 0x040 → b.peek w = s.blk.peek w)
    ∧ (s.blk.obs.clearDue = 0 ∨ s.blk.time.tick = s.blk.obs.clearTick ∨ s.blk.onEdge = false → After .counterClear s fun b => b = s.blk)
    ∧ (bit (s.blk.peek (tr 0x048)) 63 = true → bit (s.blk.peek (tr 0x048)) 60 = true → s.blk.obs.trLost = 0 →
        (s.blk.traceRoom = true → After (.traceMark (rpWord (tr 0x070) v)) s fun b => b.peek (tr 0x078) = satAdd (s.blk.peek (tr 0x078)) 1
          ∧ b.obs.trCount = s.blk.obs.trCount + 1)
        ∧ (s.blk.traceRoom = false → After (.traceMark (rpWord (tr 0x070) v)) s fun b => b.peek (tr 0x080) = satAdd (s.blk.peek (tr 0x080)) 1
          ∧ b.obs.trLost = 1 ∧ b.obs.trLostAt = s.blk.time.now))
    ∧ (bit (s.blk.peek (tr 0x048)) 60 = false → After (.traceMark (rpWord (tr 0x070) v)) s fun b => b.regs = s.blk.regs ∧ b.obs = s.blk.obs)
    ∧ (s.blk.rf (db 0x048) 63 63 = 1 → s.blk.rst.down = false → s.blk.rf (db 0x040) 63 63 = 1 →
        After (.snapshotRequest (rpOk true (db 0x048) (setBit v 0 true)) v) s fun b => b.obs.snapDue = some 1 ∧ b.obs.snapTick = s.blk.time.tick)
    ∧ (s.blk.rf (db 0x048) 63 63 = 0 ∨ s.blk.rst.down = true ∨ s.blk.rf (db 0x040) 63 63 = 0 →
        After (.snapshotRequest (rpOk true (db 0x048) (setBit v 0 true)) v) s fun b => b.obs = s.blk.obs ∧ b.rf (regAt 0x7F 0x018) 63 60 = 2)
    ∧ (∀ c, s.blk.obs.snapDue = some c → s.blk.time.tick ≠ s.blk.obs.snapTick → s.blk.onEdge = true → s.blk.rf (db 0x048) 63 63 = 1 →
        s.blk.rf (db 0x040) 63 63 = 1 → s.blk.rst.down = false →
        After .snapshot s fun b => b.obs.snapDue = none ∧ b.rf (db 0x048) 63 63 = 0
          ∧ b.rf (db 0x048) 47 32 = (s.blk.rf (db 0x048) 47 32 + 1) % 2 ^ 16)
    ∧ (s.blk.obs.snapDue = none ∨ s.blk.time.tick = s.blk.obs.snapTick ∨ s.blk.onEdge = false → After .snapshot s fun b => b = s.blk)

/-- The crease (R37, R498, R499, R502): a tick at least two ahead arms it, 0 disarms it, at its edge the chip is creased, and it goes on
from the edge that CREASE_RESUME names, of which a write is refused where one is armed or its tick is not two ahead. That CREASE_RESUME is
taken whether or not the chip is creased, and when LATE and QUIET clear, is the model's reading (log entries 28, 69). -/
def Obligations.Crease : Prop :=
  ∀ (s : State) (v : Word), s.live →
    let tick := s.blk.time.tick
    let armed := fun (w : Nat) => s.blk.rf (db w) 63 63 = 1
    (s.blk.creased = false → ¬armed 0x050 → tick + 2 ≤ fld v 47 0 →
      After (.creaseTickWrite (rpOk true (db 0x050) v) v) s fun b => b.rf (db 0x050) 63 63 = 1 ∧ b.rf (db 0x050) 47 0 = fld v 47 0 ∧ b.creased = false)
    ∧ (s.blk.creased = false → fld v 47 0 = 0 →
      After (.creaseTickWrite (rpOk true (db 0x050) v) v) s fun b => b.rf (db 0x050) 63 63 = 0 ∧ b.creased = false)
    ∧ (s.blk.creased = true ∨ (fld v 47 0 ≠ 0 ∧ (armed 0x050 ∨ fld v 47 0 < tick + 2)) →
      After (.creaseTickWrite (rpOk true (db 0x050) v) v) s fun b => b.peek (db 0x050) = s.blk.peek (db 0x050) ∧ b.rf (regAt 0x7F 0x018) 63 60 = 2)
    ∧ (armed 0x050 → s.blk.rf (db 0x050) 47 0 ≤ tick → s.blk.onEdge = true →
      After .creaseCut s fun b => b.creased = true ∧ b.rf (db 0x050) 63 63 = 0 ∧ b.peek (db 0x070) = word s.blk.time.edge)
    ∧ (¬armed 0x050 ∨ tick < s.blk.rf (db 0x050) 47 0 ∨ s.blk.onEdge = false → After .creaseCut s fun b => b = s.blk)
    ∧ (¬armed 0x058 → tick + 2 ≤ fld v 47 0 →
      After (.creaseResumeWrite (rpOk true (db 0x058) v) v) s fun b => b.rf (db 0x058) 63 63 = 1 ∧ b.rf (db 0x058) 47 0 = fld v 47 0
        ∧ b.peek (db 0x050) = s.blk.peek (db 0x050))
    ∧ (armed 0x058 ∨ fld v 47 0 < tick + 2 →
      After (.creaseResumeWrite (rpOk true (db 0x058) v) v) s fun b => b.peek (db 0x058) = s.blk.peek (db 0x058) ∧ b.rf (regAt 0x7F 0x018) 63 60 = 2)
    ∧ (armed 0x058 → s.blk.rf (db 0x058) 47 0 ≤ tick → s.blk.onEdge = true →
      After .creaseResume s fun b => b.creased = false ∧ b.rf (db 0x058) 63 63 = 0)
    ∧ (¬armed 0x058 ∨ tick < s.blk.rf (db 0x058) 47 0 ∨ s.blk.onEdge = false → After .creaseResume s fun b => b = s.blk)

/-- The collector (R326): an arriving record is written to the ring, the word that holds PHASE last, while the ring is enabled and has a
free slot, and is else counted. A
packet with a reserved TC6 opcode is counted in PAGE_ERRORS (R337). That a packet with an uncorrectable error is discarded is the
model's reading (log entry 54). -/
def Obligations.Collector : Prop :=
  ∀ (s : State) (p : Packet), s.carries → s.blk.epochOk p →
    (∀ c, (c = .captureFwd p ∧ hOp p.hdr = 0x38) ∨ (c = .traceFwd p ∧ hOp p.hdr = 0x39) →
      (s.blk.rf (tr 0x830) 63 63 = 1 → p.bad = false → s.blk.ringFree (tr 0x828) (tr 0x830) = true →
        After c s fun b => b.rf (tr 0x830) 31 16 = (s.blk.rf (tr 0x830) 31 16 + 1) % 2 ^ 16
          ∧ b.peek (tr 0x838) = s.blk.peek (tr 0x838) ∧ ∃ j ∈ b.host.jobs, j.len = 32 ∧ j.id = s.blk.host.nextJob
          ∧ ∃ rest phase, j.kind = .ringPart false [(j.addr + 40, rest), (j.addr + 32, phase)])
      ∧ (s.blk.rf (tr 0x830) 63 63 = 0 ∨ p.bad = true ∨ s.blk.ringFree (tr 0x828) (tr 0x830) = false →
        After c s fun b => b.peek (tr 0x838) = satAdd (s.blk.peek (tr 0x838)) 1 ∧ b.host = s.blk.host))
    ∧ (0x30 ≤ hOp p.hdr → hOp p.hdr ≤ 0x3E → hOp p.hdr ≠ 0x31 → hOp p.hdr ≠ 0x32 → hOp p.hdr ≠ 0x38 → hOp p.hdr ≠ 0x39 →
        After (.reservedOpcodePacket p) s fun b => b.rf (regAt 0x7E 0x018) 63 60 = 5)
end

