-- ==== Sys2Proof/Laws/Commands.lean ====
section
/-!
SUPPORT. How a command's meaning answers: what `run`, `act` and the gates of a register write come to.
-/

namespace Sys2Proof.Machine

/-- Out of cold reset a command acts by its function on the block. -/
theorem State.run_live {s : State} (h : s.live) (f : Block → Block) : s.run f = .next { s with blk := f s.blk } := by
  have h' : s.blk.boot.coldHeld = false := h
  unfold State.run State.act
  simp [h']

/-- In cold reset a command changes nothing. -/
theorem State.run_held {s : State} (h : ¬s.live) (f : Block → Block) : s.run f = .next s := by
  have h' : s.blk.boot.coldHeld = true := by unfold State.live at h; simpa using h
  unfold State.run State.act
  simp [h']

theorem After.of_run {c : Instr} {s : State} {f : Block → Block} {P : Block → Prop} (h : s.live) (p : P (f s.blk))
    (e : exec c s = s.run f := by rfl) : After c s P := ⟨_, e.trans (State.run_live h f), p⟩

theorem After.of_act {c : Instr} {s : State} {f : Block → Block} {P : Block → Prop} (p : P (f s.blk))
    (e : exec c s = s.act f := by rfl) : After c s P := ⟨_, e, p⟩

/-- A write that is taken up: its register exists, its domain answers, and its writer may write it (R532). -/
theorem Block.gate_open {b : Block} {any priv : Bool} {w : Nat} (h1 : isReg w = true)
    (h2 : b.rst.down = false ∨ wordDomain w ≠ some .compute) (h3 : any = true ∨ priv = true) (go : Block → Block) :
    b.gate any priv w go = go b := by
  unfold Block.gate
  rcases h2 with h2 | h2 <;> rcases h3 with h3 | h3 <;> simp [h1, h2, h3]

/-- A register-port write that is taken up is answered with 0 and no error (R281). -/
theorem Block.portGate_open {b : Block} {any : Bool} {rp : Rp} {w : Nat} {v : Word} (h0 : rp.wchk % 256 = rpCheck (w % 65536) v)
    (h1 : isReg w = true) (h2 : b.rst.down = false ∨ wordDomain w ≠ some .compute) (h3 : any = true ∨ rp.priv = true)
    (go : Block → Block) : b.portGate any rp w v go = (go b).answer 0 false := by
  unfold Block.portGate Block.rpAccess
  simp only [h0, beq_self_eq_true, if_true]
  rw [Block.gate_open h1 h2 h3]

/-- A request that fails its parity check changes nothing but the port's answer and the count of such requests (R281, R284). -/
theorem Block.rpAccess_bad {b : Block} {w : Nat} {v : Word} {wchk : Nat} (h : wchk % 256 ≠ rpCheck (w % 65536) v)
    (go : Block → Block × Word) : b.rpAccess w v wchk go = (b.pageErr 0x7F 6 0).answer 0 true := by
  unfold Block.rpAccess
  simp [h]

/-- An unprivileged write of a register that needs privilege is ignored and counted (R532). -/
theorem Block.gate_denied {b : Block} {w : Nat} (h1 : isReg w = true)
    (h2 : b.rst.down = false ∨ wordDomain w ≠ some .compute) (go : Block → Block) :
    b.gate false false w go = b.pageErr (w / 512) 1 (w % 512) := by
  unfold Block.gate
  rcases h2 with h2 | h2 <;> simp [h1, h2]

end Sys2Proof.Machine
end

