-- ==== Sys2Proof/Laws/Fields.lean ====
section
/-!
SUPPORT. Bit fields and sparse tables: what a read after a write gives, and that a table keeps its canonical form.
-/

namespace Sys2Proof.Machine

theorem setFld_lt {w : Nat} (v : BitVec w) {hi lo : Nat} (x : Nat) (h : lo ≤ hi + 1) (hw : hi < w) :
    v.toNat / 2 ^ (hi + 1) * 2 ^ (hi + 1) + x % 2 ^ (hi + 1 - lo) * 2 ^ lo + v.toNat % 2 ^ lo < 2 ^ w := by
  have e : 2 ^ (hi + 1) = 2 ^ (hi + 1 - lo) * 2 ^ lo := by rw [← Nat.pow_add]; congr 1; omega
  have e2 : 2 ^ w = 2 ^ (w - (hi + 1)) * 2 ^ (hi + 1) := by rw [← Nat.pow_add]; congr 1; omega
  have a : v.toNat / 2 ^ (hi + 1) < 2 ^ (w - (hi + 1)) := by
    rw [Nat.div_lt_iff_lt_mul (Nat.two_pow_pos _), ← e2]; exact v.isLt
  have b : x % 2 ^ (hi + 1 - lo) < 2 ^ (hi + 1 - lo) := Nat.mod_lt _ (Nat.two_pow_pos _)
  have c : v.toNat % 2 ^ lo < 2 ^ lo := Nat.mod_lt _ (Nat.two_pow_pos _)
  have d : x % 2 ^ (hi + 1 - lo) * 2 ^ lo + v.toNat % 2 ^ lo < 2 ^ (hi + 1) := by
    rw [e]
    calc _ < x % 2 ^ (hi + 1 - lo) * 2 ^ lo + 2 ^ lo := by omega
      _ = (x % 2 ^ (hi + 1 - lo) + 1) * 2 ^ lo := by rw [Nat.add_mul, Nat.one_mul]
      _ ≤ _ := Nat.mul_le_mul_right _ b
  calc _ < v.toNat / 2 ^ (hi + 1) * 2 ^ (hi + 1) + 2 ^ (hi + 1) := by omega
    _ = (v.toNat / 2 ^ (hi + 1) + 1) * 2 ^ (hi + 1) := by rw [Nat.add_mul, Nat.one_mul]
    _ ≤ _ := by rw [e2]; exact Nat.mul_le_mul_right _ a

theorem setFld_toNat {w : Nat} (v : BitVec w) {hi lo : Nat} (x : Nat) (h : lo ≤ hi + 1) (hw : hi < w) :
    (setFld v hi lo x).toNat = v.toNat / 2 ^ (hi + 1) * 2 ^ (hi + 1) + x % 2 ^ (hi + 1 - lo) * 2 ^ lo + v.toNat % 2 ^ lo := by
  unfold setFld
  rw [BitVec.toNat_ofNat, Nat.mod_eq_of_lt (setFld_lt v x h hw)]

/-- A field reads as what was last written to it, cut at its width. -/
theorem fld_setFld {w : Nat} (v : BitVec w) {hi lo : Nat} (x : Nat) (h : lo ≤ hi + 1) (hw : hi < w) :
    fld (setFld v hi lo x) hi lo = x % 2 ^ (hi + 1 - lo) := by
  have e : 2 ^ (hi + 1) = 2 ^ (hi + 1 - lo) * 2 ^ lo := by rw [← Nat.pow_add]; congr 1; omega
  have c : v.toNat % 2 ^ lo < 2 ^ lo := Nat.mod_lt _ (Nat.two_pow_pos _)
  unfold fld bits
  rw [setFld_toNat v x h hw]
  have : v.toNat / 2 ^ (hi + 1) * 2 ^ (hi + 1) + x % 2 ^ (hi + 1 - lo) * 2 ^ lo + v.toNat % 2 ^ lo
      = v.toNat % 2 ^ lo + (v.toNat / 2 ^ (hi + 1) * 2 ^ (hi + 1 - lo) + x % 2 ^ (hi + 1 - lo)) * 2 ^ lo := by
    rw [Nat.add_mul, Nat.mul_assoc, ← e]; omega
  rw [this, Nat.add_mul_div_right _ _ (Nat.two_pow_pos _), Nat.div_eq_of_lt c, Nat.zero_add, Nat.mul_comm,
    Nat.mul_add_mod, Nat.mod_mod]

/-- A write to a field leaves the fields above it. -/
theorem fld_setFld_above {w : Nat} (v : BitVec w) {hi lo hi' lo' : Nat} (x : Nat) (h : lo ≤ hi + 1) (hw : hi < w) (k : hi < lo') :
    fld (setFld v hi lo x) hi' lo' = fld v hi' lo' := by
  have e : 2 ^ (hi + 1) = 2 ^ (hi + 1 - lo) * 2 ^ lo := by rw [← Nat.pow_add]; congr 1; omega
  have b : x % 2 ^ (hi + 1 - lo) < 2 ^ (hi + 1 - lo) := Nat.mod_lt _ (Nat.two_pow_pos _)
  have c : v.toNat % 2 ^ lo < 2 ^ lo := Nat.mod_lt _ (Nat.two_pow_pos _)
  have d : x % 2 ^ (hi + 1 - lo) * 2 ^ lo + v.toNat % 2 ^ lo < 2 ^ (hi + 1) := by
    rw [e]
    calc _ < x % 2 ^ (hi + 1 - lo) * 2 ^ lo + 2 ^ lo := by omega
      _ = (x % 2 ^ (hi + 1 - lo) + 1) * 2 ^ lo := by rw [Nat.add_mul, Nat.one_mul]
      _ ≤ _ := Nat.mul_le_mul_right _ b
  have e2 : 2 ^ lo' = 2 ^ (hi + 1) * 2 ^ (lo' - (hi + 1)) := by rw [← Nat.pow_add]; congr 1; omega
  unfold fld bits
  rw [setFld_toNat v x h hw, e2, ← Nat.div_div_eq_div_mul, ← Nat.div_div_eq_div_mul, Nat.add_assoc,
    Nat.mul_comm (v.toNat / 2 ^ (hi + 1)), Nat.mul_add_div (Nat.two_pow_pos _), Nat.div_eq_of_lt d, Nat.add_zero]

/-- A write to a field leaves the fields below it. -/
theorem fld_setFld_below {w : Nat} (v : BitVec w) {hi lo hi' lo' : Nat} (x : Nat) (h : lo ≤ hi + 1) (hw : hi < w) (k : hi' < lo) :
    fld (setFld v hi lo x) hi' lo' = fld v hi' lo' := by
  by_cases hl : lo' ≤ hi' + 1
  · have e : 2 ^ (hi + 1) = 2 ^ (hi + 1 - lo) * 2 ^ lo := by rw [← Nat.pow_add]; congr 1; omega
    have m : (setFld v hi lo x).toNat % 2 ^ lo = v.toNat % 2 ^ lo := by
      rw [setFld_toNat v x h hw, e, ← Nat.mul_assoc, ← Nat.add_mul, Nat.add_comm, Nat.add_mul_mod_self_right, Nat.mod_mod]
    have low : ∀ n : Nat, n / 2 ^ lo' % 2 ^ (hi' + 1 - lo') = n % 2 ^ lo % 2 ^ (hi' + 1) / 2 ^ lo' := by
      intro n
      have d : 2 ^ (hi' + 1) ∣ 2 ^ lo := Nat.pow_dvd_pow 2 (by omega)
      rw [Nat.mod_mod_of_dvd _ d]
      have e3 : 2 ^ (hi' + 1) = 2 ^ lo' * 2 ^ (hi' + 1 - lo') := by rw [← Nat.pow_add]; congr 1; omega
      rw [e3, Nat.mod_mul_right_div_self]
    unfold fld bits
    rw [low, low, m]
  · have z : hi' + 1 - lo' = 0 := by omega
    unfold fld bits
    rw [z, Nat.pow_zero, Nat.mod_one, Nat.mod_one]

/-! ### Sparse tables -/

/-- An entry reads as what was last written to it. -/
theorem Tbl.get_set {α : Type} [DecidableEq α] (d : α) (t : Tbl α) (k : Nat) (v : α) : Tbl.get d (Tbl.set d t k v) k = v := by
  unfold Tbl.set
  split
  · rename_i h
    subst h
    induction t with
    | nil => rfl
    | cons x t ih =>
      obtain ⟨j, y⟩ := x
      unfold Tbl.erase
      split
      · exact ih
      · rename_i hj
        simpa [Tbl.get, hj] using ih
  · induction t with
    | nil => simp [Tbl.insert, Tbl.get]
    | cons x t ih =>
      obtain ⟨j, y⟩ := x
      unfold Tbl.insert
      split
      · simp [Tbl.get]
      · split
        · simp [Tbl.get]
        · rename_i hj
          simpa [Tbl.get, hj] using ih

/-- A write leaves every other entry. -/
theorem Tbl.get_set_ne {α : Type} [DecidableEq α] (d d' : α) (t : Tbl α) {k k' : Nat} (v : α) (h : k' ≠ k) :
    Tbl.get d' (Tbl.set d t k v) k' = Tbl.get d' t k' := by
  have hk : (k == k') = false := by simpa using fun e => h e.symm
  unfold Tbl.set
  split
  · induction t with
    | nil => rfl
    | cons x t ih =>
      obtain ⟨j, y⟩ := x
      unfold Tbl.erase
      split
      · rename_i hj
        have : j = k := by simpa using hj
        subst this
        rw [ih]; simp [Tbl.get, hk]
      · simp [Tbl.get, ih]
  · induction t with
    | nil => simp [Tbl.insert, Tbl.get, hk]
    | cons x t ih =>
      obtain ⟨j, y⟩ := x
      unfold Tbl.insert
      split
      · simp [Tbl.get, hk]
      · split
        · rename_i hj
          have : j = k := by simpa using hj
          subst this
          simp [Tbl.get, hk]
        · simp [Tbl.get, ih]

theorem Tbl.wfFrom_mono {α : Type} [DecidableEq α] (d : Nat → α) {t : Tbl α} {m n : Nat} (h : m ≤ n) (w : Tbl.wfFrom d n t = true) :
    Tbl.wfFrom d m t = true := by
  cases t with
  | nil => rfl
  | cons x t =>
    obtain ⟨j, y⟩ := x
    simp only [Tbl.wfFrom, Bool.and_eq_true, decide_eq_true_eq] at w ⊢
    exact ⟨⟨Nat.le_trans h w.1.1, w.1.2⟩, w.2⟩

theorem Tbl.erase_wfFrom {α : Type} [DecidableEq α] (d : Nat → α) {t : Tbl α} {n : Nat} (k : Nat) (w : Tbl.wfFrom d n t = true) :
    Tbl.wfFrom d n (Tbl.erase t k) = true := by
  induction t generalizing n with
  | nil => rfl
  | cons x t ih =>
    obtain ⟨j, y⟩ := x
    simp only [Tbl.wfFrom, Bool.and_eq_true, decide_eq_true_eq] at w
    unfold Tbl.erase
    split
    · exact ih (Tbl.wfFrom_mono d (by omega) w.2)
    · simp only [Tbl.wfFrom, Bool.and_eq_true, decide_eq_true_eq]
      exact ⟨w.1, ih w.2⟩

theorem Tbl.insert_wfFrom {α : Type} [DecidableEq α] (d : Nat → α) {t : Tbl α} {n k : Nat} {v : α} (hk : n ≤ k) (hv : v ≠ d k)
    (w : Tbl.wfFrom d n t = true) : Tbl.wfFrom d n (Tbl.insert t k v) = true := by
  induction t generalizing n with
  | nil => simp [Tbl.insert, Tbl.wfFrom, hk, hv]
  | cons x t ih =>
    obtain ⟨j, y⟩ := x
    simp only [Tbl.wfFrom, Bool.and_eq_true, decide_eq_true_eq] at w
    unfold Tbl.insert
    split
    · simp only [Tbl.wfFrom, Bool.and_eq_true, decide_eq_true_eq]
      exact ⟨⟨hk, hv⟩, ⟨by omega, w.1.2⟩, w.2⟩
    · split
      · rename_i hj
        have : j = k := by simpa using hj
        subst this
        simp only [Tbl.wfFrom, Bool.and_eq_true, decide_eq_true_eq]
        exact ⟨⟨hk, hv⟩, w.2⟩
      · rename_i h1 h2
        have : j ≠ k := by simpa using h2
        simp only [Tbl.wfFrom, Bool.and_eq_true, decide_eq_true_eq]
        exact ⟨w.1, ih (by omega) w.2⟩

/-- A write keeps a table's canonical form. -/
theorem Tbl.set_wf {α : Type} [DecidableEq α] (d : Nat → α) {t : Tbl α} (k : Nat) (v : α) (w : Tbl.wf d t = true) :
    Tbl.wf d (Tbl.set (d k) t k v) = true := by
  unfold Tbl.set
  split
  · exact Tbl.erase_wfFrom d k w
  · rename_i h
    exact Tbl.insert_wfFrom d (Nat.zero_le _) h w

/-- Changing every entry keeps a table's canonical form. -/
theorem Tbl.remap_wfFrom {α : Type} [DecidableEq α] (d : Nat → α) (f : Nat → α → α) {t : Tbl α} {n : Nat}
    (w : Tbl.wfFrom d n t = true) : Tbl.wfFrom d n (Tbl.remap d f t) = true := by
  induction t generalizing n with
  | nil => rfl
  | cons x t ih =>
    obtain ⟨j, y⟩ := x
    simp only [Tbl.wfFrom, Bool.and_eq_true, decide_eq_true_eq] at w
    unfold Tbl.remap
    split
    · exact ih (Tbl.wfFrom_mono d (by omega) w.2)
    · rename_i h
      simp only [Tbl.wfFrom, Bool.and_eq_true, decide_eq_true_eq]
      exact ⟨⟨w.1.1, h⟩, ih w.2⟩

end Sys2Proof.Machine
end

