-- ==== Sys2Proof/Laws/KeptBase.lean ====
section
/-!
SUPPORT. The relation that most operations keep: the blown variant code (R444) and the key root (R59) stay as they are.
Each operation f has a lemma `Block.f_kept : Kept b (f b …)` and, for simp, `Block.f_kept_iff : Kept a (f b …) = Kept a b`;
the few that may write one of the two fields for the first time have `Block.f_stays : Stays b (f b …)`.
-/

namespace Sys2Proof.Machine

/-- `c` holds the variant code and the key root that `b` holds. -/
def Kept (b c : Block) : Prop := c.boot.fuseVariant = b.boot.fuseVariant ∧ c.keyRoot = b.keyRoot

/-- A variant code and a key root that `b` holds, `c` holds too; `c` may hold one that `b` has not yet. -/
def Stays (b c : Block) : Prop :=
  (∀ v, b.boot.fuseVariant = some v → c.boot.fuseVariant = some v) ∧ (∀ v, b.keyRoot = some v → c.keyRoot = some v)

theorem Kept.rfl {b : Block} : Kept b b := ⟨Eq.refl _, Eq.refl _⟩

theorem Kept.sym {b c : Block} (h : Kept b c) : Kept c b := ⟨h.1.symm, h.2.symm⟩

theorem Kept.trans {a b c : Block} (h1 : Kept a b) (h2 : Kept b c) : Kept a c := ⟨h2.1.trans h1.1, h2.2.trans h1.2⟩

theorem Kept.cons {a b c : Block} (h2 : Kept b c) (h1 : Kept a b) : Kept a c := h1.trans h2

theorem Kept.cong {a b c : Block} (h : Kept b c) : Kept a c = Kept a b :=
  propext ⟨fun x => x.trans h.sym, fun x => x.trans h⟩

@[simp] theorem Kept.refl_iff (b : Block) : Kept b b = True := eq_true Kept.rfl

theorem Kept.ite {b x y : Block} {c : Prop} [Decidable c] (h1 : Kept b x) (h2 : Kept b y) :
    Kept b (if c then x else y) := by split <;> assumption

@[simp] theorem Kept.ite_iff {b x y : Block} {c : Prop} [Decidable c] :
    Kept b (if c then x else y) = if c then Kept b x else Kept b y := by split <;> rfl

@[simp] theorem Kept.ite_fst_iff {α : Type} {b : Block} {x y : Block × α} {c : Prop} [Decidable c] :
    Kept b (if c then x else y).1 = if c then Kept b x.1 else Kept b y.1 := by split <;> rfl

theorem foldl_kept {α : Type} (l : List α) (f : Block → α → Block) (h : ∀ z x, Kept z (f z x)) (b : Block) :
    Kept b (l.foldl f b) := by
  induction l generalizing b with
  | nil => exact Kept.rfl
  | cons x l ih => exact (h b x).trans (ih _)

@[simp] theorem foldl_kept_iff {α : Type} (l : List α) (f : Block → α → Block) (a b : Block) (h : ∀ z x, Kept z (f z x)) :
    Kept a (l.foldl f b) = Kept a b := Kept.cong (foldl_kept l f h b)

@[simp] theorem foldl_fst_kept_iff {α β : Type} (l : List α) (f : Block × β → α → Block × β) (a : Block) (b : Block × β)
    (h : ∀ z x, Kept z.1 (f z x).1) : Kept a (l.foldl f b).1 = Kept a b.1 := by
  induction l generalizing b with
  | nil => rfl
  | cons x l ih => exact (ih _).trans (Kept.cong (h b x))

section Fields

variable {b c : Block} (regs : Tbl Word) (segmap : Tbl Word) (segBad : List Nat) (ctrs : Tbl Word) (ctrBad mirrorDue : List Nat)
  (groups : Tbl Word) (groupBad segFence ctrFence : List Nat) (time : TimeSt) (host : HostSt) (req : ReqSt) (dest : DestSt)
  (mangle : MangleSt) (fold : FoldSt) (fwd : FwdSt) (ports : List PortSt) (lanes : List LaneSt) (rst : RstSt) (obs : ObsSt)
  (rp : RpSt) (free : Nat)

/-- An update that leaves the key root and the boot state. -/
@[simp] theorem Kept.mk_iff : Kept b ⟨regs, segmap, segBad, c.keyRoot, ctrs, ctrBad, mirrorDue, groups, groupBad, segFence,
    ctrFence, time, host, req, dest, mangle, fold, fwd, ports, lanes, c.boot, rst, obs, rp, free⟩ = Kept b c :=
  Kept.cong ⟨Eq.refl _, Eq.refl _⟩

theorem Kept.mk_of (h : Kept b c) : Kept b ⟨regs, segmap, segBad, c.keyRoot, ctrs, ctrBad, mirrorDue, groups, groupBad,
    segFence, ctrFence, time, host, req, dest, mangle, fold, fwd, ports, lanes, c.boot, rst, obs, rp, free⟩ := ⟨h.1, h.2⟩

/-- An update that leaves the key root and the variant code. -/
@[simp] theorem Kept.mk_boot_iff (bt : BootSt) (hb : bt.fuseVariant = c.boot.fuseVariant) :
    Kept b ⟨regs, segmap, segBad, c.keyRoot, ctrs, ctrBad, mirrorDue, groups, groupBad, segFence, ctrFence, time, host, req,
      dest, mangle, fold, fwd, ports, lanes, bt, rst, obs, rp, free⟩ = Kept b c := Kept.cong ⟨hb, Eq.refl _⟩

end Fields

theorem Stays.of_kept {b c : Block} (h : Kept b c) : Stays b c := ⟨fun _ x => h.1.trans x, fun _ x => h.2.trans x⟩

theorem Stays.trans {a b c : Block} (h : Stays a b) (k : Stays b c) : Stays a c :=
  ⟨fun v x => k.1 v (h.1 v x), fun v x => k.2 v (h.2 v x)⟩

theorem Stays.ite {b x y : Block} {c : Prop} [Decidable c] (h1 : Stays b x) (h2 : Stays b y) :
    Stays b (if c then x else y) := by split <;> assumption

end Sys2Proof.Machine
end

