-- ==== Sys2Proof/Laws/KeptOps.lean ====
section
/-!
SUPPORT. The operations over memory, registers and the traces: each operation keeps the variant code and the key root.
-/

namespace Sys2Proof.Machine

theorem Block.poke_kept (b : Block) (w : Nat) (v : Word) : Kept b (Block.poke b w v) := by
  unfold Block.poke
  simp

@[simp] theorem Block.poke_kept_iff (a0 b : Block) (w : Nat) (v : Word) :
    Kept a0 (Block.poke b w v) = Kept a0 b := Kept.cong (Block.poke_kept b w v)

theorem Block.setRf_kept (b : Block) (w : Nat) (hi : Nat) (lo : Nat) (x : Nat) : Kept b (Block.setRf b w hi lo x) := by
  unfold Block.setRf
  simp

@[simp] theorem Block.setRf_kept_iff (a0 b : Block) (w : Nat) (hi : Nat) (lo : Nat) (x : Nat) :
    Kept a0 (Block.setRf b w hi lo x) = Kept a0 b := Kept.cong (Block.setRf_kept b w hi lo x)

theorem Block.ivAdd_kept (b : Block) (key : Nat) (n : Nat) : Kept b (Block.ivAdd b key n) := by
  unfold Block.ivAdd
  simp

@[simp] theorem Block.ivAdd_kept_iff (a0 b : Block) (key : Nat) (n : Nat) :
    Kept a0 (Block.ivAdd b key n) = Kept a0 b := Kept.cong (Block.ivAdd_kept b key n)

theorem Block.bumpN_kept (b : Block) (w : Nat) (n : Nat) : Kept b (Block.bumpN b w n) := by
  unfold Block.bumpN
  simp

@[simp] theorem Block.bumpN_kept_iff (a0 b : Block) (w : Nat) (n : Nat) :
    Kept a0 (Block.bumpN b w n) = Kept a0 b := Kept.cong (Block.bumpN_kept b w n)

theorem Block.bump_kept (b : Block) (w : Nat) : Kept b (Block.bump b w) := by
  unfold Block.bump
  simp

@[simp] theorem Block.bump_kept_iff (a0 b : Block) (w : Nat) :
    Kept a0 (Block.bump b w) = Kept a0 b := Kept.cong (Block.bump_kept b w)

theorem Block.pageErrN_kept (b : Block) (page : Nat) (kind : Nat) (word_ : Nat) (n : Nat) :
    Kept b (Block.pageErrN b page kind word_ n) := by
  unfold Block.pageErrN
  simp

@[simp] theorem Block.pageErrN_kept_iff (a0 b : Block) (page : Nat) (kind : Nat) (word_ : Nat) (n : Nat) :
    Kept a0 (Block.pageErrN b page kind word_ n) = Kept a0 b := Kept.cong (Block.pageErrN_kept b page kind word_ n)

theorem Block.pageErr_kept (b : Block) (page : Nat) (kind : Nat) (word_ : Nat) : Kept b (Block.pageErr b page kind word_) := by
  unfold Block.pageErr
  simp

@[simp] theorem Block.pageErr_kept_iff (a0 b : Block) (page : Nat) (kind : Nat) (word_ : Nat) :
    Kept a0 (Block.pageErr b page kind word_) = Kept a0 b := Kept.cong (Block.pageErr_kept b page kind word_)

theorem Block.noteTook_kept (b : Block) (e : Nat) (c : Nat) : Kept b (Block.noteTook b e c) := by
  unfold Block.noteTook
  simp

@[simp] theorem Block.noteTook_kept_iff (a0 b : Block) (e : Nat) (c : Nat) :
    Kept a0 (Block.noteTook b e c) = Kept a0 b := Kept.cong (Block.noteTook_kept b e c)

theorem Block.wake_kept (b : Block) (n : Nat) : Kept b (Block.wake b n) := by
  unfold Block.wake
  simp

@[simp] theorem Block.wake_kept_iff (a0 b : Block) (n : Nat) :
    Kept a0 (Block.wake b n) = Kept a0 b := Kept.cong (Block.wake_kept b n)

theorem Block.ctrChange_kept (b : Block) (n : Nat) (f : Word → Word) : Kept b (Block.ctrChange b n f) := by
  unfold Block.ctrChange
  simp

@[simp] theorem Block.ctrChange_kept_iff (a0 b : Block) (n : Nat) (f : Word → Word) :
    Kept a0 (Block.ctrChange b n f) = Kept a0 b := Kept.cong (Block.ctrChange_kept b n f)

theorem Block.ctrAdvance_kept (b : Block) (n : Nat) (amount : Nat) : Kept b (Block.ctrAdvance b n amount) := by
  unfold Block.ctrAdvance
  simp

@[simp] theorem Block.ctrAdvance_kept_iff (a0 b : Block) (n : Nat) (amount : Nat) :
    Kept a0 (Block.ctrAdvance b n amount) = Kept a0 b := Kept.cong (Block.ctrAdvance_kept b n amount)

theorem Block.ctrPoison_kept (b : Block) (n : Nat) : Kept b (Block.ctrPoison b n) := by
  unfold Block.ctrPoison
  simp

@[simp] theorem Block.ctrPoison_kept_iff (a0 b : Block) (n : Nat) :
    Kept a0 (Block.ctrPoison b n) = Kept a0 b := Kept.cong (Block.ctrPoison_kept b n)

theorem Block.ctrFind_kept (b : Block) (n : Nat) (d : Darn) : Kept b (Block.ctrFind b n d) := by
  unfold Block.ctrFind
  (repeat' split) <;> simp

@[simp] theorem Block.ctrFind_kept_iff (a0 b : Block) (n : Nat) (d : Darn) :
    Kept a0 (Block.ctrFind b n d) = Kept a0 b := Kept.cong (Block.ctrFind_kept b n d)

theorem Block.pcBump_kept (b : Block) (port : Nat) (cls : Nat) (kind : Nat) : Kept b (Block.pcBump b port cls kind) := by
  unfold Block.pcBump
  simp

@[simp] theorem Block.pcBump_kept_iff (a0 b : Block) (port : Nat) (cls : Nat) (kind : Nat) :
    Kept a0 (Block.pcBump b port cls kind) = Kept a0 b := Kept.cong (Block.pcBump_kept b port cls kind)

theorem Block.moveOne_kept (b : Block) (n : Nat) (t : Txn) (x : RqXfer) (rest : List (Nat × RqXfer)) :
    Kept b (Block.moveOne b n t x rest) := by
  unfold Block.moveOne
  (repeat' split) <;> simp

@[simp] theorem Block.moveOne_kept_iff (a0 b : Block) (n : Nat) (t : Txn) (x : RqXfer) (rest : List (Nat × RqXfer)) :
    Kept a0 (Block.moveOne b n t x rest) = Kept a0 b := Kept.cong (Block.moveOne_kept b n t x rest)

theorem Block.move_kept (n : Nat) (b : Block) (c : Nat) : Kept b (Block.move n b c) := by
  induction n generalizing b with
  | zero => unfold Block.move; simp
  | succ n ih =>
    unfold Block.move
    (repeat' split) <;> simp [Kept.cong (ih _)]

@[simp] theorem Block.move_kept_iff (a0 : Block) (n : Nat) (b : Block) (c : Nat) :
    Kept a0 (Block.move n b c) = Kept a0 b := Kept.cong (Block.move_kept n b c)

theorem Block.sendTxn_kept (b : Block) (n : Nat) (t : Txn) : Kept b (Block.sendTxn b n t) := by
  unfold Block.sendTxn
  (repeat' split) <;> simp

@[simp] theorem Block.sendTxn_kept_iff (a0 b : Block) (n : Nat) (t : Txn) :
    Kept a0 (Block.sendTxn b n t) = Kept a0 b := Kept.cong (Block.sendTxn_kept b n t)

theorem Block.issueTxn_kept (b : Block) (t : Txn) : Kept b (Block.issueTxn b t) := by
  unfold Block.issueTxn
  (repeat' split) <;> simp

@[simp] theorem Block.issueTxn_kept_iff (a0 b : Block) (t : Txn) :
    Kept a0 (Block.issueTxn b t) = Kept a0 b := Kept.cong (Block.issueTxn_kept b t)

theorem Block.withdraw_kept (b : Block) : Kept b (Block.withdraw b) := by
  unfold Block.withdraw
  simp

@[simp] theorem Block.withdraw_kept_iff (a0 b : Block) :
    Kept a0 (Block.withdraw b) = Kept a0 b := Kept.cong (Block.withdraw_kept b)

theorem Block.hostPump_kept (b : Block) : Kept b (Block.hostPump b) := by
  unfold Block.hostPump
  simp

@[simp] theorem Block.hostPump_kept_iff (a0 b : Block) :
    Kept a0 (Block.hostPump b) = Kept a0 b := Kept.cong (Block.hostPump_kept b)

theorem Block.hostReady_kept (b : Block) (n : Nat) (r : RqReady) : Kept b (Block.hostReady b n r) := by
  unfold Block.hostReady
  (repeat' split) <;> simp

@[simp] theorem Block.hostReady_kept_iff (a0 b : Block) (n : Nat) (r : RqReady) :
    Kept a0 (Block.hostReady b n r) = Kept a0 b := Kept.cong (Block.hostReady_kept b n r)

theorem Block.openJob_kept (b : Block) (kind : HKind) (addr : Nat) (len : Nat) (jk : JobKind) :
    Kept b (Block.openJob b kind addr len jk) := by
  unfold Block.openJob
  simp

@[simp] theorem Block.openJob_kept_iff (a0 b : Block) (kind : HKind) (addr : Nat) (len : Nat) (jk : JobKind) :
    Kept a0 (Block.openJob b kind addr len jk) = Kept a0 b := Kept.cong (Block.openJob_kept b kind addr len jk)

theorem Block.offerJob_kept (b : Block) (kind : HKind) (unc : Bool) (lock : Bool) (unlock : Bool) (ctx : Nat) (addr : Nat) (len
    : Nat) (data : List Byte) (aop : Nat) (id : Nat) :
    Kept b (Block.offerJob b kind unc lock unlock ctx addr len data aop id) := by
  unfold Block.offerJob
  simp

@[simp] theorem Block.offerJob_kept_iff (a0 b : Block) (kind : HKind) (unc : Bool) (lock : Bool) (unlock : Bool) (ctx
    : Nat) (addr : Nat) (len : Nat) (data : List Byte) (aop : Nat) (id : Nat) :
    Kept a0 (Block.offerJob b kind unc lock unlock ctx addr len data aop id) = Kept a0 b :=
  Kept.cong (Block.offerJob_kept b kind unc lock unlock ctx addr len data aop id)

theorem Block.access_kept (b : Block) (kind : HKind) (unc : Bool) (lock : Bool) (unlock : Bool) (ctx : Nat) (addr : Nat) (len :
    Nat) (data : List Byte) (aop : Nat) (jk : JobKind) :
    Kept b (Block.access b kind unc lock unlock ctx addr len data aop jk) := by
  unfold Block.access
  simp

@[simp] theorem Block.access_kept_iff (a0 b : Block) (kind : HKind) (unc : Bool) (lock : Bool) (unlock : Bool) (ctx :
    Nat) (addr : Nat) (len : Nat) (data : List Byte) (aop : Nat) (jk : JobKind) :
    Kept a0 (Block.access b kind unc lock unlock ctx addr len data aop jk) = Kept a0 b :=
  Kept.cong (Block.access_kept b kind unc lock unlock ctx addr len data aop jk)

theorem Block.hread_kept (b : Block) (unc : Bool) (ctx : Nat) (addr : Nat) (len : Nat) (jk : JobKind) :
    Kept b (Block.hread b unc ctx addr len jk) := by
  unfold Block.hread
  simp

@[simp] theorem Block.hread_kept_iff (a0 b : Block) (unc : Bool) (ctx : Nat) (addr : Nat) (len : Nat) (jk : JobKind) :
    Kept a0 (Block.hread b unc ctx addr len jk) = Kept a0 b := Kept.cong (Block.hread_kept b unc ctx addr len jk)

theorem Block.holdAccess_kept (b : Block) (addr : Nat) (n : Nat) (w : Waiter) : Kept b (Block.holdAccess b addr n w) := by
  unfold Block.holdAccess
  simp

@[simp] theorem Block.holdAccess_kept_iff (a0 b : Block) (addr : Nat) (n : Nat) (w : Waiter) :
    Kept a0 (Block.holdAccess b addr n w) = Kept a0 b := Kept.cong (Block.holdAccess_kept b addr n w)

theorem Block.hwrite_kept (b : Block) (unc : Bool) (ctx : Nat) (addr : Nat) (data : List Byte) (jk : JobKind) :
    Kept b (Block.hwrite b unc ctx addr data jk) := by
  unfold Block.hwrite
  simp

@[simp] theorem Block.hwrite_kept_iff (a0 b : Block) (unc : Bool) (ctx : Nat) (addr : Nat) (data : List Byte) (jk :
    JobKind) :
    Kept a0 (Block.hwrite b unc ctx addr data jk) = Kept a0 b := Kept.cong (Block.hwrite_kept b unc ctx addr data jk)

theorem Block.record_kept (b : Block) (addr : Nat) (data : List Byte) : Kept b (Block.record b addr data) := by
  unfold Block.record
  simp

@[simp] theorem Block.record_kept_iff (a0 b : Block) (addr : Nat) (data : List Byte) :
    Kept a0 (Block.record b addr data) = Kept a0 b := Kept.cong (Block.record_kept b addr data)

theorem Block.hatomic_kept (b : Block) (wide : Bool) (unc : Bool) (ctx : Nat) (addr : Nat) (aop : Nat) (ops : List Byte) (jk :
    JobKind) :
    Kept b (Block.hatomic b wide unc ctx addr aop ops jk) := by
  unfold Block.hatomic
  simp

@[simp] theorem Block.hatomic_kept_iff (a0 b : Block) (wide : Bool) (unc : Bool) (ctx : Nat) (addr : Nat) (aop : Nat)
    (ops : List Byte) (jk : JobKind) :
    Kept a0 (Block.hatomic b wide unc ctx addr aop ops jk) = Kept a0 b :=
  Kept.cong (Block.hatomic_kept b wide unc ctx addr aop ops jk)

theorem Block.ringPut_kept (b : Block) (wBase : Nat) (wCtrl : Nat) (recBytes : Nat) (mk : Nat → List Word) :
    Kept b (Block.ringPut b wBase wCtrl recBytes mk) := by
  unfold Block.ringPut
  simp

@[simp] theorem Block.ringPut_kept_iff (a0 b : Block) (wBase : Nat) (wCtrl : Nat) (recBytes : Nat) (mk : Nat → List
    Word) :
    Kept a0 (Block.ringPut b wBase wCtrl recBytes mk) = Kept a0 b := Kept.cong (Block.ringPut_kept b wBase wCtrl recBytes mk)

theorem Block.ringNext_kept (b : Block) (trace : Bool) (parts : List (Nat × List Byte)) :
    Kept b (Block.ringNext b trace parts) := by
  unfold Block.ringNext
  (repeat' split) <;> simp

@[simp] theorem Block.ringNext_kept_iff (a0 b : Block) (trace : Bool) (parts : List (Nat × List Byte)) :
    Kept a0 (Block.ringNext b trace parts) = Kept a0 b := Kept.cong (Block.ringNext_kept b trace parts)

theorem Block.ringPutLast_kept (b : Block) (wBase : Nat) (wCtrl : Nat) (recBytes : Nat) (last : Nat) (trace : Bool) (mk : Nat →
    List Word) :
    Kept b (Block.ringPutLast b wBase wCtrl recBytes last trace mk) := by
  unfold Block.ringPutLast
  simp

@[simp] theorem Block.ringPutLast_kept_iff (a0 b : Block) (wBase : Nat) (wCtrl : Nat) (recBytes : Nat) (last : Nat)
    (trace : Bool) (mk : Nat → List Word) :
    Kept a0 (Block.ringPutLast b wBase wCtrl recBytes last trace mk) = Kept a0 b :=
  Kept.cong (Block.ringPutLast_kept b wBase wCtrl recBytes last trace mk)

theorem Block.ringWrite_kept (b : Block) (wBase : Nat) (wCtrl : Nat) (wLost : Nat) (recBytes : Nat) (mk : Nat → List Word) :
    Kept b (Block.ringWrite b wBase wCtrl wLost recBytes mk) := by
  unfold Block.ringWrite
  simp

@[simp] theorem Block.ringWrite_kept_iff (a0 b : Block) (wBase : Nat) (wCtrl : Nat) (wLost : Nat) (recBytes : Nat) (mk
    : Nat → List Word) :
    Kept a0 (Block.ringWrite b wBase wCtrl wLost recBytes mk) = Kept a0 b :=
  Kept.cong (Block.ringWrite_kept b wBase wCtrl wLost recBytes mk)

theorem Block.lossRecord_kept (b : Block) : Kept b (Block.lossRecord b) := by
  unfold Block.lossRecord
  simp

@[simp] theorem Block.lossRecord_kept_iff (a0 b : Block) :
    Kept a0 (Block.lossRecord b) = Kept a0 b := Kept.cong (Block.lossRecord_kept b)

theorem Block.errRec_kept (b : Block) (e : ErrRec) : Kept b (Block.errRec b e) := by
  unfold Block.errRec
  simp

@[simp] theorem Block.errRec_kept_iff (a0 b : Block) (e : ErrRec) :
    Kept a0 (Block.errRec b e) = Kept a0 b := Kept.cong (Block.errRec_kept b e)

theorem Block.late_kept (b : Block) (opcode : Nat) (peer : Nat) (rclass : Nat) (ctx : Nat) (info : Nat) :
    Kept b (Block.late b opcode peer rclass ctx info) := by
  unfold Block.late
  simp

@[simp] theorem Block.late_kept_iff (a0 b : Block) (opcode : Nat) (peer : Nat) (rclass : Nat) (ctx : Nat) (info : Nat) :
    Kept a0 (Block.late b opcode peer rclass ctx info) = Kept a0 b := Kept.cong (Block.late_kept b opcode peer rclass ctx info)

theorem Block.noteIn_kept (b : Block) (p : Packet) : Kept b (Block.noteIn b p) := by
  unfold Block.noteIn
  simp

@[simp] theorem Block.noteIn_kept_iff (a0 b : Block) (p : Packet) :
    Kept a0 (Block.noteIn b p) = Kept a0 b := Kept.cong (Block.noteIn_kept b p)

theorem Block.noteOut_kept (b : Block) (p : Packet) : Kept b (Block.noteOut b p) := by
  unfold Block.noteOut
  simp

@[simp] theorem Block.noteOut_kept_iff (a0 b : Block) (p : Packet) :
    Kept a0 (Block.noteOut b p) = Kept a0 b := Kept.cong (Block.noteOut_kept b p)

theorem Block.inject_kept (b : Block) (p : Packet) : Kept b (Block.inject b p) := by
  unfold Block.inject
  simp

@[simp] theorem Block.inject_kept_iff (a0 b : Block) (p : Packet) :
    Kept a0 (Block.inject b p) = Kept a0 b := Kept.cong (Block.inject_kept b p)

theorem Block.failed_kept (b : Block) (status : Nat) (reason : Nat) (ctx : Nat) (chip : Nat) (op : Nat) (addr : Word) :
    Kept b (Block.failed b status reason ctx chip op addr) := by
  unfold Block.failed
  simp

@[simp] theorem Block.failed_kept_iff (a0 b : Block) (status : Nat) (reason : Nat) (ctx : Nat) (chip : Nat) (op : Nat)
    (addr : Word) :
    Kept a0 (Block.failed b status reason ctx chip op addr) = Kept a0 b :=
  Kept.cong (Block.failed_kept b status reason ctx chip op addr)

theorem Block.localCheck_kept (b : Block) (ctx : Nat) (key : Nat) (off : Nat) (n : Nat) (perms : List Nat) :
    Kept b (Block.localCheck b ctx key off n perms).1 := by
  unfold Block.localCheck
  simp

@[simp] theorem Block.localCheck_kept_iff (a0 b : Block) (ctx : Nat) (key : Nat) (off : Nat) (n : Nat) (perms : List
    Nat) :
    Kept a0 (Block.localCheck b ctx key off n perms).1 = Kept a0 b := Kept.cong (Block.localCheck_kept b ctx key off n perms)

theorem Block.toCollector_kept (b : Block) (op : Nat) (words : List Word) : Kept b (Block.toCollector b op words) := by
  unfold Block.toCollector
  simp

@[simp] theorem Block.toCollector_kept_iff (a0 b : Block) (op : Nat) (words : List Word) :
    Kept a0 (Block.toCollector b op words) = Kept a0 b := Kept.cong (Block.toCollector_kept b op words)

theorem Block.tracePut_kept (b : Block) (typ : Nat) (ctx : Nat) (subject : Nat) (time : Nat) (a : Nat) (d : Nat) :
    Kept b (Block.tracePut b typ ctx subject time a d) := by
  unfold Block.tracePut
  simp

@[simp] theorem Block.tracePut_kept_iff (a0 b : Block) (typ : Nat) (ctx : Nat) (subject : Nat) (time : Nat) (a : Nat)
    (d : Nat) :
    Kept a0 (Block.tracePut b typ ctx subject time a d) = Kept a0 b := Kept.cong (Block.tracePut_kept b typ ctx subject time a d)

theorem Block.trace_kept (b : Block) (typ : Nat) (ctx : Nat) (subject : Nat) (a : Nat) (d : Nat) :
    Kept b (Block.trace b typ ctx subject a d) := by
  unfold Block.trace
  simp

@[simp] theorem Block.trace_kept_iff (a0 b : Block) (typ : Nat) (ctx : Nat) (subject : Nat) (a : Nat) (d : Nat) :
    Kept a0 (Block.trace b typ ctx subject a d) = Kept a0 b := Kept.cong (Block.trace_kept b typ ctx subject a d)

theorem Block.offer_kept (b : Block) : Kept b (Block.offer b) := by
  unfold Block.offer
  simp

@[simp] theorem Block.offer_kept_iff (a0 b : Block) :
    Kept a0 (Block.offer b) = Kept a0 b := Kept.cong (Block.offer_kept b)

theorem Block.tracing_kept (b : Block) (go : Block → Block) (h_go : ∀ z, Kept z (go z)) : Kept b (Block.tracing b go) := by
  unfold Block.tracing
  simp [h_go]

@[simp] theorem Block.tracing_kept_iff (a0 b : Block) (go : Block → Block) (h_go : ∀ z, Kept z (go z)) :
    Kept a0 (Block.tracing b go) = Kept a0 b := Kept.cong (Block.tracing_kept b go h_go)

theorem Block.setEngine_kept (b : Block) (e : Nat) (f : Engine → Engine) : Kept b (Block.setEngine b e f) := by
  unfold Block.setEngine
  simp

@[simp] theorem Block.setEngine_kept_iff (a0 b : Block) (e : Nat) (f : Engine → Engine) :
    Kept a0 (Block.setEngine b e f) = Kept a0 b := Kept.cong (Block.setEngine_kept b e f)

theorem Block.publish_kept (b : Block) : Kept b (Block.publish b) := by
  unfold Block.publish
  simp

@[simp] theorem Block.publish_kept_iff (a0 b : Block) :
    Kept a0 (Block.publish b) = Kept a0 b := Kept.cong (Block.publish_kept b)

theorem Block.republish_kept (b : Block) : Kept b (Block.republish b) := by
  unfold Block.republish
  simp

@[simp] theorem Block.republish_kept_iff (a0 b : Block) :
    Kept a0 (Block.republish b) = Kept a0 b := Kept.cong (Block.republish_kept b)

theorem Block.setPort_kept (b : Block) (p : Nat) (f : PortSt → PortSt) : Kept b (Block.setPort b p f) := by
  unfold Block.setPort
  simp

@[simp] theorem Block.setPort_kept_iff (a0 b : Block) (p : Nat) (f : PortSt → PortSt) :
    Kept a0 (Block.setPort b p f) = Kept a0 b := Kept.cong (Block.setPort_kept b p f)

theorem Block.setLane_kept (b : Block) (p : Nat) (f : LaneSt → LaneSt) : Kept b (Block.setLane b p f) := by
  unfold Block.setLane
  simp

@[simp] theorem Block.setLane_kept_iff (a0 b : Block) (p : Nat) (f : LaneSt → LaneSt) :
    Kept a0 (Block.setLane b p f) = Kept a0 b := Kept.cong (Block.setLane_kept b p f)

theorem Block.setLs_kept (b : Block) (p : Nat) (hi : Nat) (lo : Nat) (x : Nat) : Kept b (Block.setLs b p hi lo x) := by
  unfold Block.setLs
  simp

@[simp] theorem Block.setLs_kept_iff (a0 b : Block) (p : Nat) (hi : Nat) (lo : Nat) (x : Nat) :
    Kept a0 (Block.setLs b p hi lo x) = Kept a0 b := Kept.cong (Block.setLs_kept b p hi lo x)

theorem Block.flitOut_kept (b : Block) (p : Nat) (hdr : Word) (body : List Slot) (echo : Nat) (crc : Nat) :
    Kept b (Block.flitOut b p hdr body echo crc) := by
  unfold Block.flitOut
  simp

@[simp] theorem Block.flitOut_kept_iff (a0 b : Block) (p : Nat) (hdr : Word) (body : List Slot) (echo : Nat) (crc :
    Nat) :
    Kept a0 (Block.flitOut b p hdr body echo crc) = Kept a0 b := Kept.cong (Block.flitOut_kept b p hdr body echo crc)

theorem Block.pilotOut_kept (b : Block) (p : Nat) (ms : List PilotMsg) : Kept b (Block.pilotOut b p ms) := by
  unfold Block.pilotOut
  simp

@[simp] theorem Block.pilotOut_kept_iff (a0 b : Block) (p : Nat) (ms : List PilotMsg) :
    Kept a0 (Block.pilotOut b p ms) = Kept a0 b := Kept.cong (Block.pilotOut_kept b p ms)

end Sys2Proof.Machine
end

