-- ==== Sys2Proof/Laws/KeptRequester.lean ====
section
/-!
SUPPORT. The requester: each operation keeps the variant code and the key root.
-/

namespace Sys2Proof.Machine

theorem Block.setStream_kept (b : Block) (s : Nat) (f : Stream → Stream) : Kept b (Block.setStream b s f) := by
  unfold Block.setStream
  simp

@[simp] theorem Block.setStream_kept_iff (a0 b : Block) (s : Nat) (f : Stream → Stream) :
    Kept a0 (Block.setStream b s f) = Kept a0 b := Kept.cong (Block.setStream_kept b s f)

theorem Block.disableStream_kept (b : Block) (s : Nat) : Kept b (Block.disableStream b s) := by
  unfold Block.disableStream
  simp

@[simp] theorem Block.disableStream_kept_iff (a0 b : Block) (s : Nat) :
    Kept a0 (Block.disableStream b s) = Kept a0 b := Kept.cong (Block.disableStream_kept b s)

theorem Block.startStream_kept (b : Block) (s : Nat) (rung : Bool) : Kept b (Block.startStream b s rung) := by
  unfold Block.startStream
  simp

@[simp] theorem Block.startStream_kept_iff (a0 b : Block) (s : Nat) (rung : Bool) :
    Kept a0 (Block.startStream b s rung) = Kept a0 b := Kept.cong (Block.startStream_kept b s rung)

theorem Block.enableStream_kept (b : Block) (s : Nat) (write : Nat) : Kept b (Block.enableStream b s write) := by
  unfold Block.enableStream
  dsimp only; (repeat' split) <;> simp

@[simp] theorem Block.enableStream_kept_iff (a0 b : Block) (s : Nat) (write : Nat) :
    Kept a0 (Block.enableStream b s write) = Kept a0 b := Kept.cong (Block.enableStream_kept b s write)

theorem Block.fetch_kept (n : Nat) (b : Block) (s : Nat) : Kept b (Block.fetch n b s) := by
  induction n generalizing b with
  | zero => unfold Block.fetch; simp
  | succ n ih =>
    unfold Block.fetch
    simp [Kept.cong (ih _)]

@[simp] theorem Block.fetch_kept_iff (a0 : Block) (n : Nat) (b : Block) (s : Nat) :
    Kept a0 (Block.fetch n b s) = Kept a0 b := Kept.cong (Block.fetch_kept n b s)

theorem Block.headReport_kept (b : Block) (s : Nat) : Kept b (Block.headReport b s) := by
  unfold Block.headReport
  simp

@[simp] theorem Block.headReport_kept_iff (a0 b : Block) (s : Nat) :
    Kept a0 (Block.headReport b s) = Kept a0 b := Kept.cong (Block.headReport_kept b s)

theorem Block.doorbellBad_kept (b : Block) (s : Nat) (v : Word) : Kept b (Block.doorbellBad b s v) := by
  unfold Block.doorbellBad
  simp

@[simp] theorem Block.doorbellBad_kept_iff (a0 b : Block) (s : Nat) (v : Word) :
    Kept a0 (Block.doorbellBad b s v) = Kept a0 b := Kept.cong (Block.doorbellBad_kept b s v)

theorem Block.voidEnable_kept (b : Block) (s : Nat) (k : EntryAsk) : Kept b (Block.voidEnable b s k) := by
  unfold Block.voidEnable
  simp

@[simp] theorem Block.voidEnable_kept_iff (a0 b : Block) (s : Nat) (k : EntryAsk) :
    Kept a0 (Block.voidEnable b s k) = Kept a0 b := Kept.cong (Block.voidEnable_kept b s k)

theorem Block.entryRead_kept (b : Block) (s gen : Nat) (data : List Byte) (bad : Bool) :
    Kept b (Block.entryRead b s gen data bad) := by
  unfold Block.entryRead
  dsimp only
  generalize (b.stream s).asking = k
  cases k <;> dsimp only [Option.map_none, Option.map_some, Option.getD_some, Option.getD_none] <;> (repeat' split) <;> simp

@[simp] theorem Block.entryRead_kept_iff (a0 b : Block) (s gen : Nat) (data : List Byte) (bad : Bool) :
    Kept a0 (Block.entryRead b s gen data bad) = Kept a0 b := Kept.cong (Block.entryRead_kept b s gen data bad)

theorem Block.headSteps_kept (n : Nat) (b : Block) (s : Nat) : Kept b (Block.headSteps n b s) := by
  induction n generalizing b with
  | zero => unfold Block.headSteps; simp
  | succ n ih =>
    unfold Block.headSteps
    simp [Kept.cong (ih _)]

@[simp] theorem Block.headSteps_kept_iff (a0 : Block) (n : Nat) (b : Block) (s : Nat) :
    Kept a0 (Block.headSteps n b s) = Kept a0 b := Kept.cong (Block.headSteps_kept n b s)

theorem Block.descRead_kept (b : Block) (s : Nat) (q : Nat) (gen : Nat) (data : List Byte) (bad : Bool) :
    Kept b (Block.descRead b s q gen data bad) := by
  unfold Block.descRead
  simp

@[simp] theorem Block.descRead_kept_iff (a0 b : Block) (s : Nat) (q : Nat) (gen : Nat) (data : List Byte) (bad : Bool) :
    Kept a0 (Block.descRead b s q gen data bad) = Kept a0 b := Kept.cong (Block.descRead_kept b s q gen data bad)

theorem Block.setCmd_kept (b : Block) (id : Nat) (f : Cmd → Cmd) : Kept b (Block.setCmd b id f) := by
  unfold Block.setCmd
  simp

@[simp] theorem Block.setCmd_kept_iff (a0 b : Block) (id : Nat) (f : Cmd → Cmd) :
    Kept a0 (Block.setCmd b id f) = Kept a0 b := Kept.cong (Block.setCmd_kept b id f)

theorem Block.admitDesc_kept (b : Block) (s : Nat) (f : Fetched) : Kept b (Block.admitDesc b s f) := by
  unfold Block.admitDesc
  simp

@[simp] theorem Block.admitDesc_kept_iff (a0 b : Block) (s : Nat) (f : Fetched) :
    Kept a0 (Block.admitDesc b s f) = Kept a0 b := Kept.cong (Block.admitDesc_kept b s f)

theorem Block.setProg_kept (b : Block) (s : Nat) (f : Prog → Prog) : Kept b (Block.setProg b s f) := by
  unfold Block.setProg
  simp

@[simp] theorem Block.setProg_kept_iff (a0 b : Block) (s : Nat) (f : Prog → Prog) :
    Kept a0 (Block.setProg b s f) = Kept a0 b := Kept.cong (Block.setProg_kept b s f)

theorem Block.disarm_kept (b : Block) (s : Nat) : Kept b (Block.disarm b s) := by
  unfold Block.disarm
  simp

@[simp] theorem Block.disarm_kept_iff (a0 b : Block) (s : Nat) :
    Kept a0 (Block.disarm b s) = Kept a0 b := Kept.cong (Block.disarm_kept b s)

theorem Block.dropPass_kept (b : Block) (id : Nat) : Kept b (Block.dropPass b id) := by
  unfold Block.dropPass
  simp

@[simp] theorem Block.dropPass_kept_iff (a0 b : Block) (id : Nat) :
    Kept a0 (Block.dropPass b id) = Kept a0 b := Kept.cong (Block.dropPass_kept b id)

theorem Block.foldStop_kept (b : Block) (s : Nat) (cause : Nat) (status : Nat) (pc : Nat) :
    Kept b (Block.foldStop b s cause status pc) := by
  unfold Block.foldStop
  dsimp only; (repeat' split) <;> simp

@[simp] theorem Block.foldStop_kept_iff (a0 b : Block) (s : Nat) (cause : Nat) (status : Nat) (pc : Nat) :
    Kept a0 (Block.foldStop b s cause status pc) = Kept a0 b := Kept.cong (Block.foldStop_kept b s cause status pc)

theorem Block.setPc_kept (b : Block) (s : Nat) (pc : Nat) : Kept b (Block.setPc b s pc) := by
  unfold Block.setPc
  simp

@[simp] theorem Block.setPc_kept_iff (a0 b : Block) (s : Nat) (pc : Nat) :
    Kept a0 (Block.setPc b s pc) = Kept a0 b := Kept.cong (Block.setPc_kept b s pc)

theorem Block.foldAdvance_kept (b : Block) (s : Nat) : Kept b (Block.foldAdvance b s) := by
  unfold Block.foldAdvance
  dsimp only; (repeat' split) <;> simp

@[simp] theorem Block.foldAdvance_kept_iff (a0 b : Block) (s : Nat) :
    Kept a0 (Block.foldAdvance b s) = Kept a0 b := Kept.cong (Block.foldAdvance_kept b s)

theorem Block.setFlow_kept (b : Block) (f : Flow) : Kept b (Block.setFlow b f) := by
  unfold Block.setFlow
  simp

@[simp] theorem Block.setFlow_kept_iff (a0 b : Block) (f : Flow) :
    Kept a0 (Block.setFlow b f) = Kept a0 b := Kept.cong (Block.setFlow_kept b f)

theorem Block.setGflow_kept (b : Block) (g : GroupFlow) : Kept b (Block.setGflow b g) := by
  unfold Block.setGflow
  simp

@[simp] theorem Block.setGflow_kept_iff (a0 b : Block) (g : GroupFlow) :
    Kept a0 (Block.setGflow b g) = Kept a0 b := Kept.cong (Block.setGflow_kept b g)

theorem Block.stopCmd_kept (b : Block) (id : Nat) (status : Nat) (reason : Nat) (chip : Nat) :
    Kept b (Block.stopCmd b id status reason chip) := by
  unfold Block.stopCmd
  simp

@[simp] theorem Block.stopCmd_kept_iff (a0 b : Block) (id : Nat) (status : Nat) (reason : Nat) (chip : Nat) :
    Kept a0 (Block.stopCmd b id status reason chip) = Kept a0 b := Kept.cong (Block.stopCmd_kept b id status reason chip)

theorem Block.stopFrom_kept (b : Block) (id : Nat) (k : Nat) (status : Nat) (reason : Nat) (chip : Nat) :
    Kept b (Block.stopFrom b id k status reason chip) := by
  unfold Block.stopFrom
  simp

@[simp] theorem Block.stopFrom_kept_iff (a0 b : Block) (id : Nat) (k : Nat) (status : Nat) (reason : Nat) (chip : Nat) :
    Kept a0 (Block.stopFrom b id k status reason chip) = Kept a0 b := Kept.cong (Block.stopFrom_kept b id k status reason chip)

theorem Block.setPlan_kept (b : Block) (id : Nat) (k : Nat) (f : Plan → Plan) : Kept b (Block.setPlan b id k f) := by
  unfold Block.setPlan
  simp

@[simp] theorem Block.setPlan_kept_iff (a0 b : Block) (id : Nat) (k : Nat) (f : Plan → Plan) :
    Kept a0 (Block.setPlan b id k f) = Kept a0 b := Kept.cong (Block.setPlan_kept b id k f)

theorem Block.cmdCheck_kept (b : Block) (id : Nat) (key : Nat) (off : Nat) (n : Nat) (perms : List Nat) :
    Kept b (Block.cmdCheck b id key off n perms).1 := by
  unfold Block.cmdCheck
  (repeat' split) <;> simp

@[simp] theorem Block.cmdCheck_kept_iff (a0 b : Block) (id : Nat) (key : Nat) (off : Nat) (n : Nat) (perms : List Nat) :
    Kept a0 (Block.cmdCheck b id key off n perms).1 = Kept a0 b := Kept.cong (Block.cmdCheck_kept b id key off n perms)

theorem Block.checkLanding_kept (b : Block) (c : Cmd) (p : Plan) : Kept b (Block.checkLanding b c p) := by
  unfold Block.checkLanding
  simp

@[simp] theorem Block.checkLanding_kept_iff (a0 b : Block) (c : Cmd) (p : Plan) :
    Kept a0 (Block.checkLanding b c p) = Kept a0 b := Kept.cong (Block.checkLanding_kept b c p)

theorem Block.startReads_kept (b : Block) (c : Cmd) (p : Plan) : Kept b (Block.startReads b c p) := by
  unfold Block.startReads
  (repeat' split) <;> simp

@[simp] theorem Block.startReads_kept_iff (a0 b : Block) (c : Cmd) (p : Plan) :
    Kept a0 (Block.startReads b c p) = Kept a0 b := Kept.cong (Block.startReads_kept b c p)

theorem Block.emit_kept (b : Block) (c : Cmd) (p : Plan) : Kept b (Block.emit b c p) := by
  unfold Block.emit
  simp

@[simp] theorem Block.emit_kept_iff (a0 b : Block) (c : Cmd) (p : Plan) :
    Kept a0 (Block.emit b c p) = Kept a0 b := Kept.cong (Block.emit_kept b c p)

theorem Block.writeResidual_kept (b : Block) (c : Cmd) (p : Plan) : Kept b (Block.writeResidual b c p) := by
  unfold Block.writeResidual
  simp

@[simp] theorem Block.writeResidual_kept_iff (a0 b : Block) (c : Cmd) (p : Plan) :
    Kept a0 (Block.writeResidual b c p) = Kept a0 b := Kept.cong (Block.writeResidual_kept b c p)

theorem Block.sendFsync_kept (b : Block) (peer : Nat) (cls : Nat) : Kept b (Block.sendFsync b peer cls) := by
  unfold Block.sendFsync
  (repeat' split) <;> simp

@[simp] theorem Block.sendFsync_kept_iff (a0 b : Block) (peer : Nat) (cls : Nat) :
    Kept a0 (Block.sendFsync b peer cls) = Kept a0 b := Kept.cong (Block.sendFsync_kept b peer cls)

theorem Block.firstFsync_kept (b : Block) (p : Plan) : Kept b (Block.firstFsync b p) := by
  unfold Block.firstFsync
  dsimp only; (repeat' split) <;> simp

@[simp] theorem Block.firstFsync_kept_iff (a0 b : Block) (p : Plan) :
    Kept a0 (Block.firstFsync b p) = Kept a0 b := Kept.cong (Block.firstFsync_kept b p)

theorem Block.tickTurn_kept (b : Block) (c : Cmd) : Kept b (Block.tickTurn b c) := by
  unfold Block.tickTurn
  (repeat' split) <;> simp

@[simp] theorem Block.tickTurn_kept_iff (a0 b : Block) (c : Cmd) :
    Kept a0 (Block.tickTurn b c) = Kept a0 b := Kept.cong (Block.tickTurn_kept b c)

theorem Block.tickHoldEnd_kept (b c : Block) (s : Nat) (h : Block.tickHoldEnd b s = some c) : Kept b c := by
  unfold Block.tickHoldEnd at h
  (repeat' split at h) <;> simp at h
  subst h; simp

theorem Block.tickHoldEnd_kept_iff (a0 b c : Block) (s : Nat) (h : Block.tickHoldEnd b s = some c) :
    Kept a0 c = Kept a0 b := Kept.cong (Block.tickHoldEnd_kept b c s h)

theorem Block.foldTurn_kept (b : Block) (s : Nat) : Kept b (Block.foldTurn b s) := by
  unfold Block.foldTurn
  dsimp only; (repeat' split) <;> simp

@[simp] theorem Block.foldTurn_kept_iff (a0 b : Block) (s : Nat) :
    Kept a0 (Block.foldTurn b s) = Kept a0 b := Kept.cong (Block.foldTurn_kept b s)

theorem Block.pumpStream_kept (n : Nat) (b : Block) (s : Nat) : Kept b (Block.pumpStream n b s) := by
  induction n generalizing b with
  | zero => unfold Block.pumpStream; simp
  | succ n ih =>
    unfold Block.pumpStream
    (repeat' split) <;> simp [Kept.cong (ih _)]

@[simp] theorem Block.pumpStream_kept_iff (a0 : Block) (n : Nat) (b : Block) (s : Nat) :
    Kept a0 (Block.pumpStream n b s) = Kept a0 b := Kept.cong (Block.pumpStream_kept n b s)

theorem Block.reqPump_kept (b : Block) : Kept b (Block.reqPump b) := by
  unfold Block.reqPump
  simp

@[simp] theorem Block.reqPump_kept_iff (a0 b : Block) :
    Kept a0 (Block.reqPump b) = Kept a0 b := Kept.cong (Block.reqPump_kept b)

theorem Block.sourceRead_kept (b : Block) (cmd : Nat) (pk : Nat) (part : Nat) (res : Bool) (data : List Byte) (bad : Bool) :
    Kept b (Block.sourceRead b cmd pk part res data bad) := by
  unfold Block.sourceRead
  dsimp only; (repeat' split) <;> simp

@[simp] theorem Block.sourceRead_kept_iff (a0 b : Block) (cmd : Nat) (pk : Nat) (part : Nat) (res : Bool) (data : List
    Byte) (bad : Bool) :
    Kept a0 (Block.sourceRead b cmd pk part res data bad) = Kept a0 b :=
  Kept.cong (Block.sourceRead_kept b cmd pk part res data bad)

theorem Block.dropCmd_kept (b : Block) (c : Cmd) : Kept b (Block.dropCmd b c) := by
  unfold Block.dropCmd
  (repeat' split) <;> simp

@[simp] theorem Block.dropCmd_kept_iff (a0 b : Block) (c : Cmd) :
    Kept a0 (Block.dropCmd b c) = Kept a0 b := Kept.cong (Block.dropCmd_kept b c)

theorem Block.complete_kept (b : Block) (c : Cmd) : Kept b (Block.complete b c) := by
  unfold Block.complete
  simp

@[simp] theorem Block.complete_kept_iff (a0 b : Block) (c : Cmd) :
    Kept a0 (Block.complete b c) = Kept a0 b := Kept.cong (Block.complete_kept b c)

theorem Block.soloCheck_kept (b : Block) : Kept b (Block.soloCheck b) := by
  unfold Block.soloCheck
  simp

@[simp] theorem Block.soloCheck_kept_iff (a0 b : Block) :
    Kept a0 (Block.soloCheck b) = Kept a0 b := Kept.cong (Block.soloCheck_kept b)

theorem Block.closeTag_kept (b : Block) (e : TagEnt) (timeoutMs : Nat) : Kept b (Block.closeTag b e timeoutMs) := by
  unfold Block.closeTag
  simp

@[simp] theorem Block.closeTag_kept_iff (a0 b : Block) (e : TagEnt) (timeoutMs : Nat) :
    Kept a0 (Block.closeTag b e timeoutMs) = Kept a0 b := Kept.cong (Block.closeTag_kept b e timeoutMs)

theorem Block.breakFlow_kept (b : Block) (peer : Nat) (cls : Nat) (cause : Nat) (by_ : Nat) :
    Kept b (Block.breakFlow b peer cls cause by_) := by
  unfold Block.breakFlow
  simp

@[simp] theorem Block.breakFlow_kept_iff (a0 b : Block) (peer : Nat) (cls : Nat) (cause : Nat) (by_ : Nat) :
    Kept a0 (Block.breakFlow b peer cls cause by_) = Kept a0 b := Kept.cong (Block.breakFlow_kept b peer cls cause by_)

theorem Block.endCmd_kept (b : Block) (id : Nat) (status : Nat) (chip : Nat) : Kept b (Block.endCmd b id status chip) := by
  unfold Block.endCmd
  simp

@[simp] theorem Block.endCmd_kept_iff (a0 b : Block) (id : Nat) (status : Nat) (chip : Nat) :
    Kept a0 (Block.endCmd b id status chip) = Kept a0 b := Kept.cong (Block.endCmd_kept b id status chip)

theorem Block.finishPosted_kept (b : Block) (ps : List Posted) (failPos : Option Nat) (status : Nat) (reason : Nat) (chip : Nat) :
    Kept b (Block.finishPosted b ps failPos status reason chip) := by
  unfold Block.finishPosted
  simp

@[simp] theorem Block.finishPosted_kept_iff (a0 b : Block) (ps : List Posted) (failPos : Option Nat) (status : Nat)
    (reason : Nat) (chip : Nat) :
    Kept a0 (Block.finishPosted b ps failPos status reason chip) = Kept a0 b :=
  Kept.cong (Block.finishPosted_kept b ps failPos status reason chip)

theorem Block.receipt_kept (b : Block) (peer : Nat) (cls : Nat) (c : Nat) (status : Nat) (reason : Nat) :
    Kept b (Block.receipt b peer cls c status reason) := by
  unfold Block.receipt
  simp

@[simp] theorem Block.receipt_kept_iff (a0 b : Block) (peer : Nat) (cls : Nat) (c : Nat) (status : Nat) (reason : Nat) :
    Kept a0 (Block.receipt b peer cls c status reason) = Kept a0 b := Kept.cong (Block.receipt_kept b peer cls c status reason)

theorem Block.noteGroup_kept (b : Block) (key : Nat) (cls : Nat) (id : Nat) : Kept b (Block.noteGroup b key cls id) := by
  unfold Block.noteGroup
  simp

@[simp] theorem Block.noteGroup_kept_iff (a0 b : Block) (key : Nat) (cls : Nat) (id : Nat) :
    Kept a0 (Block.noteGroup b key cls id) = Kept a0 b := Kept.cong (Block.noteGroup_kept b key cls id)

theorem Block.dropFinished_kept (b : Block) (key : Nat) (cls : Nat) (id : Nat) : Kept b (Block.dropFinished b key cls id) := by
  unfold Block.dropFinished
  simp

@[simp] theorem Block.dropFinished_kept_iff (a0 b : Block) (key : Nat) (cls : Nat) (id : Nat) :
    Kept a0 (Block.dropFinished b key cls id) = Kept a0 b := Kept.cong (Block.dropFinished_kept b key cls id)

theorem Block.receiptMC_kept (b : Block) (key : Nat) (cls : Nat) (gen : Nat) (count : Nat) (status : Nat) (reason : Nat) (chip :
    Nat) :
    Kept b (Block.receiptMC b key cls gen count status reason chip) := by
  unfold Block.receiptMC
  dsimp only; (repeat' split) <;> simp

@[simp] theorem Block.receiptMC_kept_iff (a0 b : Block) (key : Nat) (cls : Nat) (gen : Nat) (count : Nat) (status :
    Nat) (reason : Nat) (chip : Nat) :
    Kept a0 (Block.receiptMC b key cls gen count status reason chip) = Kept a0 b :=
  Kept.cong (Block.receiptMC_kept b key cls gen count status reason chip)

theorem Block.landLocal_kept (b : Block) (c : Cmd) (pieces : List (Nat × Nat × Bool)) (lctr : Nat) (k : Nat) (data : List Byte) :
    Kept b (Block.landLocal b c pieces lctr k data) := by
  unfold Block.landLocal
  simp

@[simp] theorem Block.landLocal_kept_iff (a0 b : Block) (c : Cmd) (pieces : List (Nat × Nat × Bool)) (lctr : Nat) (k :
    Nat) (data : List Byte) :
    Kept a0 (Block.landLocal b c pieces lctr k data) = Kept a0 b := Kept.cong (Block.landLocal_kept b c pieces lctr k data)

theorem Block.response_kept (b : Block) (e : TagEnt) (status : Nat) (reason : Nat) (chip : Nat) (data : List Byte) (bad : Bool) :
    Kept b (Block.response b e status reason chip data bad) := by
  unfold Block.response
  dsimp only; (repeat' split) <;> simp

@[simp] theorem Block.response_kept_iff (a0 b : Block) (e : TagEnt) (status : Nat) (reason : Nat) (chip : Nat) (data :
    List Byte) (bad : Bool) :
    Kept a0 (Block.response b e status reason chip data bad) = Kept a0 b :=
  Kept.cong (Block.response_kept b e status reason chip data bad)

theorem Block.syncAck_kept (b : Block) (peer cls count tag : Nat) : Kept b (Block.syncAck b peer cls count tag) := by
  unfold Block.syncAck
  dsimp only
  split
  · simp
  · split
    · simp
    · simp
      refine foldl_kept _ _ (fun z x => ?_) b
      split
      · simp
      · split <;> simp

@[simp] theorem Block.syncAck_kept_iff (a0 b : Block) (peer : Nat) (cls : Nat) (count : Nat) (tag : Nat) :
    Kept a0 (Block.syncAck b peer cls count tag) = Kept a0 b := Kept.cong (Block.syncAck_kept b peer cls count tag)

theorem Block.notePosted_kept (b : Block) (peer : Nat) (cls : Nat) : Kept b (Block.notePosted b peer cls) := by
  unfold Block.notePosted
  (repeat' split) <;> simp

@[simp] theorem Block.notePosted_kept_iff (a0 b : Block) (peer : Nat) (cls : Nat) :
    Kept a0 (Block.notePosted b peer cls) = Kept a0 b := Kept.cong (Block.notePosted_kept b peer cls)

theorem Block.noteFsync_kept (b : Block) (peer : Nat) (cls : Nat) (tag : Nat) : Kept b (Block.noteFsync b peer cls tag) := by
  unfold Block.noteFsync
  dsimp only; (repeat' split) <;> simp

@[simp] theorem Block.noteFsync_kept_iff (a0 b : Block) (peer : Nat) (cls : Nat) (tag : Nat) :
    Kept a0 (Block.noteFsync b peer cls tag) = Kept a0 b := Kept.cong (Block.noteFsync_kept b peer cls tag)

theorem Block.tornNote_kept (b : Block) (flushed : Bool) (dropOp : Nat) (dropDst : Nat) (reqCtx : Nat) (members : Nat) (tag :
    Nat) (chip : Nat) :
    Kept b (Block.tornNote b flushed dropOp dropDst reqCtx members tag chip) := by
  unfold Block.tornNote
  (repeat' split) <;> simp

@[simp] theorem Block.tornNote_kept_iff (a0 b : Block) (flushed : Bool) (dropOp : Nat) (dropDst : Nat) (reqCtx : Nat)
    (members : Nat) (tag : Nat) (chip : Nat) :
    Kept a0 (Block.tornNote b flushed dropOp dropDst reqCtx members tag chip) = Kept a0 b :=
  Kept.cong (Block.tornNote_kept b flushed dropOp dropDst reqCtx members tag chip)

theorem Block.timeout_kept (b : Block) (c : Cmd) : Kept b (Block.timeout b c) := by
  unfold Block.timeout
  (repeat' split) <;> simp

@[simp] theorem Block.timeout_kept_iff (a0 b : Block) (c : Cmd) :
    Kept a0 (Block.timeout b c) = Kept a0 b := Kept.cong (Block.timeout_kept b c)

theorem Block.foldBump_kept (b : Block) (s : Nat) (k : Nat) (n : Nat) : Kept b (Block.foldBump b s k n) := by
  unfold Block.foldBump
  simp

@[simp] theorem Block.foldBump_kept_iff (a0 b : Block) (s : Nat) (k : Nat) (n : Nat) :
    Kept a0 (Block.foldBump b s k n) = Kept a0 b := Kept.cong (Block.foldBump_kept b s k n)

theorem Block.stall_kept (b : Block) (s : Nat) (n : Nat) : Kept b (Block.stall b s n) := by
  unfold Block.stall
  (repeat' split) <;> simp

@[simp] theorem Block.stall_kept_iff (a0 b : Block) (s : Nat) (n : Nat) :
    Kept a0 (Block.stall b s n) = Kept a0 b := Kept.cong (Block.stall_kept b s n)

theorem Block.stalls_kept (b : Block) (old : Nat) : Kept b (Block.stalls b old) := by
  unfold Block.stalls
  simp

@[simp] theorem Block.stalls_kept_iff (a0 b : Block) (old : Nat) :
    Kept a0 (Block.stalls b old) = Kept a0 b := Kept.cong (Block.stalls_kept b old)

theorem Block.clock_kept (b : Block) (now : Nat) : Kept b (Block.clock b now) := by
  unfold Block.clock
  simp

@[simp] theorem Block.clock_kept_iff (a0 b : Block) (now : Nat) :
    Kept a0 (Block.clock b now) = Kept a0 b := Kept.cong (Block.clock_kept b now)

end Sys2Proof.Machine
end

