-- ==== Sys2Proof/Laws/KeptDest.lean ====
section
/-!
SUPPORT. The destination side: each operation keeps the variant code and the key root.
-/

namespace Sys2Proof.Machine

theorem Block.unbox_kept (b : Block) (p : Packet) : Kept b (Block.unbox b p) := by
  unfold Block.unbox
  simp

@[simp] theorem Block.unbox_kept_iff (a0 b : Block) (p : Packet) :
    Kept a0 (Block.unbox b p) = Kept a0 b := Kept.cong (Block.unbox_kept b p)

theorem Block.rebox_kept (b : Block) (p : Packet) : Kept b (Block.rebox b p) := by
  unfold Block.rebox
  simp

@[simp] theorem Block.rebox_kept_iff (a0 b : Block) (p : Packet) :
    Kept a0 (Block.rebox b p) = Kept a0 b := Kept.cong (Block.rebox_kept b p)

theorem Block.absorb_kept (b : Block) (p : Packet) : Kept b (Block.absorb b p) := by
  unfold Block.absorb
  simp

@[simp] theorem Block.absorb_kept_iff (a0 b : Block) (p : Packet) :
    Kept a0 (Block.absorb b p) = Kept a0 b := Kept.cong (Block.absorb_kept b p)

theorem Block.found_kept (b : Block) (p : Packet) (ctr : Nat) (f : Finds) : Kept b (Block.found b p ctr f) := by
  unfold Block.found
  (repeat' split) <;> simp

@[simp] theorem Block.found_kept_iff (a0 b : Block) (p : Packet) (ctr : Nat) (f : Finds) :
    Kept a0 (Block.found b p ctr f) = Kept a0 b := Kept.cong (Block.found_kept b p ctr f)

theorem Block.setPkt_kept (b : Block) (id : Nat) (f : DPkt → DPkt) : Kept b (Block.setPkt b id f) := by
  unfold Block.setPkt
  simp

@[simp] theorem Block.setPkt_kept_iff (a0 b : Block) (id : Nat) (f : DPkt → DPkt) :
    Kept a0 (Block.setPkt b id f) = Kept a0 b := Kept.cong (Block.setPkt_kept b id f)

theorem Block.setDflow_kept (b : Block) (f : DFlow) : Kept b (Block.setDflow b f) := by
  unfold Block.setDflow
  simp

@[simp] theorem Block.setDflow_kept_iff (a0 b : Block) (f : DFlow) :
    Kept a0 (Block.setDflow b f) = Kept a0 b := Kept.cong (Block.setDflow_kept b f)

theorem Block.sendReceipt_kept (b : Block) (f : DFlow) (status : Nat) (reason : Nat) :
    Kept b (Block.sendReceipt b f status reason) := by
  unfold Block.sendReceipt
  (repeat' split) <;> simp

@[simp] theorem Block.sendReceipt_kept_iff (a0 b : Block) (f : DFlow) (status : Nat) (reason : Nat) :
    Kept a0 (Block.sendReceipt b f status reason) = Kept a0 b := Kept.cong (Block.sendReceipt_kept b f status reason)

theorem Block.settle_kept (n : Nat) (b : Block) (src cls : Nat) (mc : Option Nat) : Kept b (Block.settle n b src cls mc) := by
  induction n generalizing b with
  | zero => unfold Block.settle; simp
  | succ n ih =>
    unfold Block.settle
    (repeat' split) <;> simp [Kept.cong (ih _)]

@[simp] theorem Block.settle_kept_iff (a0 : Block) (n : Nat) (b : Block) (src cls : Nat) (mc : Option Nat) :
    Kept a0 (Block.settle n b src cls mc) = Kept a0 b := Kept.cong (Block.settle_kept n b src cls mc)

theorem Block.settleFlow_kept (b : Block) (src : Nat) (cls : Nat) (mc : Option Nat) : Kept b (Block.settleFlow b src cls mc) := by
  unfold Block.settleFlow
  simp

@[simp] theorem Block.settleFlow_kept_iff (a0 b : Block) (src : Nat) (cls : Nat) (mc : Option Nat) :
    Kept a0 (Block.settleFlow b src cls mc) = Kept a0 b := Kept.cong (Block.settleFlow_kept b src cls mc)

theorem Block.startPkt_kept (b : Block) (id : Nat) : Kept b (Block.startPkt b id) := by
  unfold Block.startPkt
  (repeat' split) <;> simp

@[simp] theorem Block.startPkt_kept_iff (a0 b : Block) (id : Nat) :
    Kept a0 (Block.startPkt b id) = Kept a0 b := Kept.cong (Block.startPkt_kept b id)

theorem Block.startOrHold_kept (b : Block) (id : Nat) (haddr : Nat) (n : Nat) : Kept b (Block.startOrHold b id haddr n) := by
  unfold Block.startOrHold
  simp

@[simp] theorem Block.startOrHold_kept_iff (a0 b : Block) (id : Nat) (haddr : Nat) (n : Nat) :
    Kept a0 (Block.startOrHold b id haddr n) = Kept a0 b := Kept.cong (Block.startOrHold_kept b id haddr n)

theorem Block.releaseWaiters_kept (b : Block) : Kept b (Block.releaseWaiters b) := by
  unfold Block.releaseWaiters
  rw [foldl_kept_iff]
  · simp
  · rintro z ⟨a, n, w⟩
    cases w <;> dsimp only <;> (repeat' split) <;> simp

@[simp] theorem Block.releaseWaiters_kept_iff (a0 b : Block) :
    Kept a0 (Block.releaseWaiters b) = Kept a0 b := Kept.cong (Block.releaseWaiters_kept b)

theorem Block.pktDone_kept (b : Block) (id : Nat) (status : Nat) (reason : Nat) : Kept b (Block.pktDone b id status reason) := by
  unfold Block.pktDone
  (repeat' split) <;> simp

@[simp] theorem Block.pktDone_kept_iff (a0 b : Block) (id : Nat) (status : Nat) (reason : Nat) :
    Kept a0 (Block.pktDone b id status reason) = Kept a0 b := Kept.cong (Block.pktDone_kept b id status reason)

theorem Block.respond_kept (b : Block) (dst : Nat) (ctx : Nat) (tag : Nat) (status : Nat) (reason : Nat) (data : List Byte) :
    Kept b (Block.respond b dst ctx tag status reason data) := by
  unfold Block.respond
  simp

@[simp] theorem Block.respond_kept_iff (a0 b : Block) (dst : Nat) (ctx : Nat) (tag : Nat) (status : Nat) (reason :
    Nat) (data : List Byte) :
    Kept a0 (Block.respond b dst ctx tag status reason data) = Kept a0 b :=
  Kept.cong (Block.respond_kept b dst ctx tag status reason data)

theorem Block.failReq_kept (b : Block) (h : Slot) (c : Check) : Kept b (Block.failReq b h c) := by
  unfold Block.failReq
  simp

@[simp] theorem Block.failReq_kept_iff (a0 b : Block) (h : Slot) (c : Check) :
    Kept a0 (Block.failReq b h c) = Kept a0 b := Kept.cong (Block.failReq_kept b h c)

theorem Block.takeUp_kept (b : Block) (d : DPkt) : Kept b (Block.takeUp b d) := by
  unfold Block.takeUp
  simp

@[simp] theorem Block.takeUp_kept_iff (a0 b : Block) (d : DPkt) :
    Kept a0 (Block.takeUp b d) = Kept a0 b := Kept.cong (Block.takeUp_kept b d)

theorem Block.stage_kept (b : Block) (x : Staged) : Kept b (Block.stage b x) := by
  unfold Block.stage
  simp

@[simp] theorem Block.stage_kept_iff (a0 b : Block) (x : Staged) :
    Kept a0 (Block.stage b x) = Kept a0 b := Kept.cong (Block.stage_kept b x)

theorem Block.stagePump_kept (b : Block) : Kept b (Block.stagePump b) := by
  unfold Block.stagePump
  rw [foldl_kept_iff]
  · simp
  · intro z p
    dsimp only
    (repeat' split) <;> simp

@[simp] theorem Block.stagePump_kept_iff (a0 b : Block) :
    Kept a0 (Block.stagePump b) = Kept a0 b := Kept.cong (Block.stagePump_kept b)

theorem Block.arrive_kept (b : Block) (p : Packet) (mine : Bool) (go : Block → Block) (h_go : ∀ z, Kept z (go z)) :
    Kept b (Block.arrive b p mine go) := by
  unfold Block.arrive
  simp [Kept.cong (h_go _)]

@[simp] theorem Block.arrive_kept_iff (a0 b : Block) (p : Packet) (mine : Bool) (go : Block → Block) (h_go : ∀ z, Kept
    z (go z)) :
    Kept a0 (Block.arrive b p mine go) = Kept a0 b := Kept.cong (Block.arrive_kept b p mine go h_go)

theorem Block.failPosted_kept (b : Block) (p : Packet) (c : Check) : Kept b (Block.failPosted b p c) := by
  unfold Block.failPosted
  simp

@[simp] theorem Block.failPosted_kept_iff (a0 b : Block) (p : Packet) (c : Check) :
    Kept a0 (Block.failPosted b p c) = Kept a0 b := Kept.cong (Block.failPosted_kept b p c)

theorem Block.arriveStore_kept (b : Block) (p : Packet) (f : Finds) : Kept b (Block.arriveStore b p f) := by
  unfold Block.arriveStore
  simp

@[simp] theorem Block.arriveStore_kept_iff (a0 b : Block) (p : Packet) (f : Finds) :
    Kept a0 (Block.arriveStore b p f) = Kept a0 b := Kept.cong (Block.arriveStore_kept b p f)

theorem Block.arriveReduce_kept (b : Block) (p : Packet) (f : Finds) : Kept b (Block.arriveReduce b p f) := by
  unfold Block.arriveReduce
  dsimp only; (repeat' split) <;> simp

@[simp] theorem Block.arriveReduce_kept_iff (a0 b : Block) (p : Packet) (f : Finds) :
    Kept a0 (Block.arriveReduce b p f) = Kept a0 b := Kept.cong (Block.arriveReduce_kept b p f)

theorem Block.reduceReady_kept (b : Block) (id : Nat) (data : List Byte) (bad : Bool) :
    Kept b (Block.reduceReady b id data bad) := by
  unfold Block.reduceReady
  (repeat' split) <;> simp

@[simp] theorem Block.reduceReady_kept_iff (a0 b : Block) (id : Nat) (data : List Byte) (bad : Bool) :
    Kept a0 (Block.reduceReady b id data bad) = Kept a0 b := Kept.cong (Block.reduceReady_kept b id data bad)

theorem Block.reduceDone_kept (b : Block) (id : Nat) (result : List Byte) (bad : Bool) :
    Kept b (Block.reduceDone b id result bad) := by
  unfold Block.reduceDone
  (repeat' split) <;> simp

@[simp] theorem Block.reduceDone_kept_iff (a0 b : Block) (id : Nat) (result : List Byte) (bad : Bool) :
    Kept a0 (Block.reduceDone b id result bad) = Kept a0 b := Kept.cong (Block.reduceDone_kept b id result bad)

theorem Block.failNonPosted_kept (b : Block) (p : Packet) (c : Check) : Kept b (Block.failNonPosted b p c) := by
  unfold Block.failNonPosted
  simp

@[simp] theorem Block.failNonPosted_kept_iff (a0 b : Block) (p : Packet) (c : Check) :
    Kept a0 (Block.failNonPosted b p c) = Kept a0 b := Kept.cong (Block.failNonPosted_kept b p c)

theorem Block.arriveLoad_kept (b : Block) (p : Packet) (f : Finds) : Kept b (Block.arriveLoad b p f) := by
  unfold Block.arriveLoad
  simp

@[simp] theorem Block.arriveLoad_kept_iff (a0 b : Block) (p : Packet) (f : Finds) :
    Kept a0 (Block.arriveLoad b p f) = Kept a0 b := Kept.cong (Block.arriveLoad_kept b p f)

theorem Block.arriveAtomic_kept (b : Block) (p : Packet) (f : Finds) : Kept b (Block.arriveAtomic b p f) := by
  unfold Block.arriveAtomic
  simp

@[simp] theorem Block.arriveAtomic_kept_iff (a0 b : Block) (p : Packet) (f : Finds) :
    Kept a0 (Block.arriveAtomic b p f) = Kept a0 b := Kept.cong (Block.arriveAtomic_kept b p f)

theorem Block.answered_kept (b : Block) (id : Nat) (data : List Byte) (bad : Bool) : Kept b (Block.answered b id data bad) := by
  unfold Block.answered
  (repeat' split) <;> simp

@[simp] theorem Block.answered_kept_iff (a0 b : Block) (id : Nat) (data : List Byte) (bad : Bool) :
    Kept a0 (Block.answered b id data bad) = Kept a0 b := Kept.cong (Block.answered_kept b id data bad)

theorem Block.arriveSignal_kept (b : Block) (p : Packet) (f : Finds) : Kept b (Block.arriveSignal b p f) := by
  unfold Block.arriveSignal
  simp

@[simp] theorem Block.arriveSignal_kept_iff (a0 b : Block) (p : Packet) (f : Finds) :
    Kept a0 (Block.arriveSignal b p f) = Kept a0 b := Kept.cong (Block.arriveSignal_kept b p f)

theorem Block.arriveCtrRead_kept (b : Block) (p : Packet) (f : Finds) : Kept b (Block.arriveCtrRead b p f) := by
  unfold Block.arriveCtrRead
  simp

@[simp] theorem Block.arriveCtrRead_kept_iff (a0 b : Block) (p : Packet) (f : Finds) :
    Kept a0 (Block.arriveCtrRead b p f) = Kept a0 b := Kept.cong (Block.arriveCtrRead_kept b p f)

theorem Block.arriveFsync_kept (b : Block) (p : Packet) : Kept b (Block.arriveFsync b p) := by
  unfold Block.arriveFsync
  simp

@[simp] theorem Block.arriveFsync_kept_iff (a0 b : Block) (p : Packet) :
    Kept a0 (Block.arriveFsync b p) = Kept a0 b := Kept.cong (Block.arriveFsync_kept b p)

end Sys2Proof.Machine
end

