-- ==== Sys2Proof/Laws/KeptMangle.lean ====
section
/-!
SUPPORT. The Mangle engines: each operation keeps the variant code and the key root.
-/

namespace Sys2Proof.Machine

theorem Block.compute_kept (b : Block) (u : MUnit) : Kept b (Block.compute b u).1 := by
  unfold Block.compute
  simp

@[simp] theorem Block.compute_kept_iff (a0 b : Block) (u : MUnit) :
    Kept a0 (Block.compute b u).1 = Kept a0 b := Kept.cong (Block.compute_kept b u)

theorem Block.dispatch_kept (n : Nat) (b : Block)  : Kept b (Block.dispatch n b) := by
  induction n generalizing b with
  | zero => unfold Block.dispatch; simp
  | succ n ih =>
    unfold Block.dispatch
    dsimp only; (repeat' split) <;> simp [Kept.cong (ih _), *]

@[simp] theorem Block.dispatch_kept_iff (a0 : Block) (n : Nat) (b : Block)  :
    Kept a0 (Block.dispatch n b) = Kept a0 b := Kept.cong (Block.dispatch_kept n b)

theorem Block.dispatchAll_kept (b : Block) : Kept b (Block.dispatchAll b) := by
  unfold Block.dispatchAll
  simp

@[simp] theorem Block.dispatchAll_kept_iff (a0 b : Block) :
    Kept a0 (Block.dispatchAll b) = Kept a0 b := Kept.cong (Block.dispatchAll_kept b)

theorem Block.countUnit_kept (b : Block) (e : Nat) (h : Held) (bad : Bool) : Kept b (Block.countUnit b e h bad) := by
  unfold Block.countUnit
  simp

@[simp] theorem Block.countUnit_kept_iff (a0 b : Block) (e : Nat) (h : Held) (bad : Bool) :
    Kept a0 (Block.countUnit b e h bad) = Kept a0 b := Kept.cong (Block.countUnit_kept b e h bad)

theorem Block.wringDone_kept (b : Block) (cmd : Nat) (pk : Nat) (h : Held) (bad : Bool) :
    Kept b (Block.wringDone b cmd pk h bad) := by
  unfold Block.wringDone
  simp

@[simp] theorem Block.wringDone_kept_iff (a0 b : Block) (cmd : Nat) (pk : Nat) (h : Held) (bad : Bool) :
    Kept a0 (Block.wringDone b cmd pk h bad) = Kept a0 b := Kept.cong (Block.wringDone_kept b cmd pk h bad)

end Sys2Proof.Machine
end

