-- ==== Sys2Proof/Laws/KeptFold.lean ====
section
/-!
SUPPORT. The Fold sequencer: each operation keeps the variant code and the key root.
-/

namespace Sys2Proof.Machine

theorem Block.foldEnd_kept (b : Block) (s : Nat) : Kept b (Block.foldEnd b s) := by
  unfold Block.foldEnd
  (repeat' split) <;> simp

@[simp] theorem Block.foldEnd_kept_iff (a0 b : Block) (s : Nat) :
    Kept a0 (Block.foldEnd b s) = Kept a0 b := Kept.cong (Block.foldEnd_kept b s)

theorem Block.foldSettle_kept (b : Block) (s : Nat) : Kept b (Block.foldSettle b s) := by
  unfold Block.foldSettle
  simp

@[simp] theorem Block.foldSettle_kept_iff (a0 b : Block) (s : Nat) :
    Kept a0 (Block.foldSettle b s) = Kept a0 b := Kept.cong (Block.foldSettle_kept b s)

theorem Block.foldHalt_kept (b : Block) (s : Nat) (cause : Nat) (status : Nat) : Kept b (Block.foldHalt b s cause status) := by
  unfold Block.foldHalt
  simp

@[simp] theorem Block.foldHalt_kept_iff (a0 b : Block) (s : Nat) (cause : Nat) (status : Nat) :
    Kept a0 (Block.foldHalt b s cause status) = Kept a0 b := Kept.cong (Block.foldHalt_kept b s cause status)

theorem Block.foldNext_kept (b : Block) (s : Nat) : Kept b (Block.foldNext b s) := by
  unfold Block.foldNext
  simp

@[simp] theorem Block.foldNext_kept_iff (a0 b : Block) (s : Nat) :
    Kept a0 (Block.foldNext b s) = Kept a0 b := Kept.cong (Block.foldNext_kept b s)

theorem Block.foldFetch_kept (b : Block) (s op : Nat) (d : Darn) (go : Block → Slot → Block) (h : ∀ z x, Kept z (go z x)) :
    Kept b (Block.foldFetch b s op d go) := by
  unfold Block.foldFetch
  (repeat' split) <;> simp [Kept.cong (h _ _)]

@[simp] theorem Block.foldFetch_kept_iff (a b : Block) (s op : Nat) (d : Darn) (go : Block → Slot → Block) (h : ∀ z x, Kept z
    (go z x)) :
    Kept a (Block.foldFetch b s op d go) = Kept a b := Kept.cong (Block.foldFetch_kept b s op d go h)

theorem Block.foldIssue_kept (b : Block) (s : Nat) (c : Cmd) : Kept b (Block.foldIssue b s c) := by
  unfold Block.foldIssue
  (repeat' split) <;> simp

@[simp] theorem Block.foldIssue_kept_iff (a0 b : Block) (s : Nat) (c : Cmd) :
    Kept a0 (Block.foldIssue b s c) = Kept a0 b := Kept.cong (Block.foldIssue_kept b s c)

theorem Block.foldData_kept (b : Block) (s : Nat) (okInstr : Bool) (mk : Cmd → Prog → Option Cmd) :
    Kept b (Block.foldData b s okInstr mk) := by
  unfold Block.foldData
  (repeat' split) <;> simp

@[simp] theorem Block.foldData_kept_iff (a0 b : Block) (s : Nat) (okInstr : Bool) (mk : Cmd → Prog → Option Cmd) :
    Kept a0 (Block.foldData b s okInstr mk) = Kept a0 b := Kept.cong (Block.foldData_kept b s okInstr mk)

theorem Block.foldPut_kept (b : Block) (s : Nat) (i : Slot) : Kept b (Block.foldPut b s i) := by
  unfold Block.foldPut
  simp

@[simp] theorem Block.foldPut_kept_iff (a0 b : Block) (s : Nat) (i : Slot) :
    Kept a0 (Block.foldPut b s i) = Kept a0 b := Kept.cong (Block.foldPut_kept b s i)

theorem Block.foldGet_kept (b : Block) (s : Nat) (i : Slot) : Kept b (Block.foldGet b s i) := by
  unfold Block.foldGet
  simp

@[simp] theorem Block.foldGet_kept_iff (a0 b : Block) (s : Nat) (i : Slot) :
    Kept a0 (Block.foldGet b s i) = Kept a0 b := Kept.cong (Block.foldGet_kept b s i)

theorem Block.foldPutr_kept (b : Block) (s : Nat) (i : Slot) : Kept b (Block.foldPutr b s i) := by
  unfold Block.foldPutr
  simp

@[simp] theorem Block.foldPutr_kept_iff (a0 b : Block) (s : Nat) (i : Slot) :
    Kept a0 (Block.foldPutr b s i) = Kept a0 b := Kept.cong (Block.foldPutr_kept b s i)

theorem Block.foldSignal_kept (b : Block) (s : Nat) (i : Slot) : Kept b (Block.foldSignal b s i) := by
  unfold Block.foldSignal
  simp

@[simp] theorem Block.foldSignal_kept_iff (a0 b : Block) (s : Nat) (i : Slot) :
    Kept a0 (Block.foldSignal b s i) = Kept a0 b := Kept.cong (Block.foldSignal_kept b s i)

theorem Block.gatherRead_kept (b : Block) (s : Nat) (id : Nat) (list : Nat) (k : Nat) (n : Nat) (skey : Nat) :
    Kept b (Block.gatherRead b s id list k n skey) := by
  unfold Block.gatherRead
  (repeat' split) <;> simp

@[simp] theorem Block.gatherRead_kept_iff (a0 b : Block) (s : Nat) (id : Nat) (list : Nat) (k : Nat) (n : Nat) (skey :
    Nat) :
    Kept a0 (Block.gatherRead b s id list k n skey) = Kept a0 b := Kept.cong (Block.gatherRead_kept b s id list k n skey)

theorem Block.foldGather_kept (b : Block) (s : Nat) (i : Slot) : Kept b (Block.foldGather b s i) := by
  unfold Block.foldGather
  dsimp only; (repeat' split) <;> simp

@[simp] theorem Block.foldGather_kept_iff (a0 b : Block) (s : Nat) (i : Slot) :
    Kept a0 (Block.foldGather b s i) = Kept a0 b := Kept.cong (Block.foldGather_kept b s i)

theorem Block.gatherRows_kept (b : Block) (s : Nat) (id : Nat) (k : Nat) (data : List Byte) (bad : Bool) :
    Kept b (Block.gatherRows b s id k data bad) := by
  unfold Block.gatherRows
  (repeat' split) <;> simp

@[simp] theorem Block.gatherRows_kept_iff (a0 b : Block) (s : Nat) (id : Nat) (k : Nat) (data : List Byte) (bad :
    Bool) :
    Kept a0 (Block.gatherRows b s id k data bad) = Kept a0 b := Kept.cong (Block.gatherRows_kept b s id k data bad)

theorem Block.foldWait_kept (b : Block) (s : Nat) (i : Slot) (d : Darn) : Kept b (Block.foldWait b s i d) := by
  unfold Block.foldWait
  dsimp only; (repeat' split) <;> simp

@[simp] theorem Block.foldWait_kept_iff (a0 b : Block) (s : Nat) (i : Slot) (d : Darn) :
    Kept a0 (Block.foldWait b s i d) = Kept a0 b := Kept.cong (Block.foldWait_kept b s i d)

theorem Block.foldWaited_kept (b : Block) (s : Nat) (d : Darn) : Kept b (Block.foldWaited b s d) := by
  unfold Block.foldWaited
  simp

@[simp] theorem Block.foldWaited_kept_iff (a0 b : Block) (s : Nat) (d : Darn) :
    Kept a0 (Block.foldWaited b s d) = Kept a0 b := Kept.cong (Block.foldWaited_kept b s d)

theorem Block.lag_kept (b : Block) (s : Nat) (late : Nat) : Kept b (Block.lag b s late) := by
  unfold Block.lag
  simp

@[simp] theorem Block.lag_kept_iff (a0 b : Block) (s : Nat) (late : Nat) :
    Kept a0 (Block.lag b s late) = Kept a0 b := Kept.cong (Block.lag_kept b s late)

theorem Block.foldOverrun_kept (b : Block) (s : Nat) (late : Nat) : Kept b (Block.foldOverrun b s late) := by
  unfold Block.foldOverrun
  simp

@[simp] theorem Block.foldOverrun_kept_iff (a0 b : Block) (s : Nat) (late : Nat) :
    Kept a0 (Block.foldOverrun b s late) = Kept a0 b := Kept.cong (Block.foldOverrun_kept b s late)

theorem Block.foldTick_kept (b : Block) (s : Nat) (i : Slot) : Kept b (Block.foldTick b s i) := by
  unfold Block.foldTick
  dsimp only; (repeat' split) <;> simp

@[simp] theorem Block.foldTick_kept_iff (a0 b : Block) (s : Nat) (i : Slot) :
    Kept a0 (Block.foldTick b s i) = Kept a0 b := Kept.cong (Block.foldTick_kept b s i)

theorem Block.foldTicked_kept (b : Block) (s : Nat) : Kept b (Block.foldTicked b s) := by
  unfold Block.foldTicked
  simp

@[simp] theorem Block.foldTicked_kept_iff (a0 b : Block) (s : Nat) :
    Kept a0 (Block.foldTicked b s) = Kept a0 b := Kept.cong (Block.foldTicked_kept b s)

theorem Block.foldFence_kept (b : Block) (s : Nat) (i : Slot) (st : FState) : Kept b (Block.foldFence b s i st) := by
  unfold Block.foldFence
  simp

@[simp] theorem Block.foldFence_kept_iff (a0 b : Block) (s : Nat) (i : Slot) (st : FState) :
    Kept a0 (Block.foldFence b s i st) = Kept a0 b := Kept.cong (Block.foldFence_kept b s i st)

theorem Block.foldLoop_kept (b : Block) (s : Nat) (i : Slot) : Kept b (Block.foldLoop b s i) := by
  unfold Block.foldLoop
  simp

@[simp] theorem Block.foldLoop_kept_iff (a0 b : Block) (s : Nat) (i : Slot) :
    Kept a0 (Block.foldLoop b s i) = Kept a0 b := Kept.cong (Block.foldLoop_kept b s i)

theorem Block.passAhead_kept (n : Nat) (b : Block) (s : Nat) : Kept b (Block.passAhead n b s) := by
  induction n generalizing b with
  | zero => unfold Block.passAhead; simp
  | succ n ih =>
    unfold Block.passAhead
    (repeat' split) <;> simp [Kept.cong (ih _)]

@[simp] theorem Block.passAhead_kept_iff (a0 : Block) (n : Nat) (b : Block) (s : Nat) :
    Kept a0 (Block.passAhead n b s) = Kept a0 b := Kept.cong (Block.passAhead_kept n b s)

theorem Block.foldPass_kept (b : Block) (s : Nat) (i : Slot) : Kept b (Block.foldPass b s i) := by
  unfold Block.foldPass
  dsimp only; (repeat' split) <;> simp

@[simp] theorem Block.foldPass_kept_iff (a0 b : Block) (s : Nat) (i : Slot) :
    Kept a0 (Block.foldPass b s i) = Kept a0 b := Kept.cong (Block.foldPass_kept b s i)

theorem Block.passIssued_kept (b : Block) (s : Nat) : Kept b (Block.passIssued b s) := by
  unfold Block.passIssued
  (repeat' split) <;> simp

@[simp] theorem Block.passIssued_kept_iff (a0 b : Block) (s : Nat) :
    Kept a0 (Block.passIssued b s) = Kept a0 b := Kept.cong (Block.passIssued_kept b s)

theorem Block.passReady_kept (b : Block) (s : Nat) (x : PassPkt) : Kept b (Block.passReady b s x) := by
  unfold Block.passReady
  simp

@[simp] theorem Block.passReady_kept_iff (a0 b : Block) (s : Nat) (x : PassPkt) :
    Kept a0 (Block.passReady b s x) = Kept a0 b := Kept.cong (Block.passReady_kept b s x)

theorem Block.passAheadDone_kept (b : Block) (cmd : Nat) (at_ : Nat) (data : List Byte) (bad : Bool) :
    Kept b (Block.passAheadDone b cmd at_ data bad) := by
  unfold Block.passAheadDone
  (repeat' split) <;> simp

@[simp] theorem Block.passAheadDone_kept_iff (a0 b : Block) (cmd : Nat) (at_ : Nat) (data : List Byte) (bad : Bool) :
    Kept a0 (Block.passAheadDone b cmd at_ data bad) = Kept a0 b := Kept.cong (Block.passAheadDone_kept b cmd at_ data bad)

theorem Block.setPass_kept (b : Block) (cmd : Nat) (k : Nat) (f : PassPkt → PassPkt) : Kept b (Block.setPass b cmd k f) := by
  unfold Block.setPass
  simp

@[simp] theorem Block.setPass_kept_iff (a0 b : Block) (cmd : Nat) (k : Nat) (f : PassPkt → PassPkt) :
    Kept a0 (Block.setPass b cmd k f) = Kept a0 b := Kept.cong (Block.setPass_kept b cmd k f)

theorem Block.passCheck_kept (b : Block) (c : Cmd) (pieces : List (Nat × Nat)) (perms : List Nat) :
    Kept b (Block.passCheck b c pieces perms).1 := by
  unfold Block.passCheck
  simp

@[simp] theorem Block.passCheck_kept_iff (a0 b : Block) (c : Cmd) (pieces : List (Nat × Nat)) (perms : List Nat) :
    Kept a0 (Block.passCheck b c pieces perms).1 = Kept a0 b := Kept.cong (Block.passCheck_kept b c pieces perms)

theorem Block.passFail_kept (b : Block) (ps : Pass) (k : Nat) (status : Nat) (reason : Nat) :
    Kept b (Block.passFail b ps k status reason) := by
  unfold Block.passFail
  simp

@[simp] theorem Block.passFail_kept_iff (a0 b : Block) (ps : Pass) (k : Nat) (status : Nat) (reason : Nat) :
    Kept a0 (Block.passFail b ps k status reason) = Kept a0 b := Kept.cong (Block.passFail_kept b ps k status reason)

theorem Block.passReads_kept (b : Block) (k : Nat) (c : Cmd) (pieces : List (Nat × Nat × Bool)) :
    Kept b (Block.passReads b k c pieces) := by
  unfold Block.passReads
  simp

@[simp] theorem Block.passReads_kept_iff (a0 b : Block) (k : Nat) (c : Cmd) (pieces : List (Nat × Nat × Bool)) :
    Kept a0 (Block.passReads b k c pieces) = Kept a0 b := Kept.cong (Block.passReads_kept b k c pieces)

theorem Block.passLands_kept (b : Block) (cmd : Nat) (lctr : Nat) (k : Nat) (span : Nat) (pieces : List (Nat × Nat × Bool))
    (keep : Bool) (data : List Byte) :
    Kept b (Block.passLands b cmd lctr k span pieces keep data) := by
  unfold Block.passLands
  (repeat' split) <;> simp

@[simp] theorem Block.passLands_kept_iff (a0 b : Block) (cmd : Nat) (lctr : Nat) (k : Nat) (span : Nat) (pieces : List
    (Nat × Nat × Bool)) (keep : Bool) (data : List Byte) :
    Kept a0 (Block.passLands b cmd lctr k span pieces keep data) = Kept a0 b :=
  Kept.cong (Block.passLands_kept b cmd lctr k span pieces keep data)

theorem Block.passStart_kept (b : Block) (s : Nat) (k : Nat) (ps : Pass) (c : Cmd) (x : Staged) :
    Kept b (Block.passStart b s k ps c x) := by
  unfold Block.passStart
  simp

@[simp] theorem Block.passStart_kept_iff (a0 b : Block) (s : Nat) (k : Nat) (ps : Pass) (c : Cmd) (x : Staged) :
    Kept a0 (Block.passStart b s k ps c x) = Kept a0 b := Kept.cong (Block.passStart_kept b s k ps c x)

theorem Block.passConsume_kept (b : Block) (s : Nat) : Kept b (Block.passConsume b s) := by
  unfold Block.passConsume
  dsimp only; (repeat' split) <;> simp

@[simp] theorem Block.passConsume_kept_iff (a0 b : Block) (s : Nat) :
    Kept a0 (Block.passConsume b s) = Kept a0 b := Kept.cong (Block.passConsume_kept b s)

theorem Block.passOperand_kept (b : Block) (cmd : Nat) (k : Nat) (part : Option Nat) (data : List Byte) (bad : Bool) :
    Kept b (Block.passOperand b cmd k part data bad) := by
  unfold Block.passOperand
  dsimp only; (repeat' split) <;> simp

@[simp] theorem Block.passOperand_kept_iff (a0 b : Block) (cmd : Nat) (k : Nat) (part : Option Nat) (data : List Byte)
    (bad : Bool) :
    Kept a0 (Block.passOperand b cmd k part data bad) = Kept a0 b := Kept.cong (Block.passOperand_kept b cmd k part data bad)

theorem Block.passForward_kept (b : Block) (ps : Pass) (off : Nat) (span : Nat) (k : Nat) (data : List Byte) :
    Kept b (Block.passForward b ps off span k data) := by
  unfold Block.passForward
  (repeat' split) <;> simp

@[simp] theorem Block.passForward_kept_iff (a0 b : Block) (ps : Pass) (off : Nat) (span : Nat) (k : Nat) (data : List
    Byte) :
    Kept a0 (Block.passForward b ps off span k data) = Kept a0 b := Kept.cong (Block.passForward_kept b ps off span k data)

theorem Block.passDone_kept (b : Block) (cmd : Nat) (k : Nat) (h : Held) (bad : Bool) :
    Kept b (Block.passDone b cmd k h bad) := by
  unfold Block.passDone
  dsimp only; (repeat' split) <;> simp

@[simp] theorem Block.passDone_kept_iff (a0 b : Block) (cmd : Nat) (k : Nat) (h : Held) (bad : Bool) :
    Kept a0 (Block.passDone b cmd k h bad) = Kept a0 b := Kept.cong (Block.passDone_kept b cmd k h bad)

theorem Block.uncount_kept (b : Block) (cmd : Nat) (k : Nat) (n : Nat) : Kept b (Block.uncount b cmd k n) := by
  unfold Block.uncount
  simp

@[simp] theorem Block.uncount_kept_iff (a0 b : Block) (cmd : Nat) (k : Nat) (n : Nat) :
    Kept a0 (Block.uncount b cmd k n) = Kept a0 b := Kept.cong (Block.uncount_kept b cmd k n)

theorem Block.passLanded_kept (b : Block) (cmd : Nat) (lctr : Nat) (n : Nat) (span : Nat) (k : Nat) (keep : Bool) (bad : Bool) :
    Kept b (Block.passLanded b cmd lctr n span k keep bad) := by
  unfold Block.passLanded
  (repeat' split) <;> simp

@[simp] theorem Block.passLanded_kept_iff (a0 b : Block) (cmd : Nat) (lctr : Nat) (n : Nat) (span : Nat) (k : Nat)
    (keep : Bool) (bad : Bool) :
    Kept a0 (Block.passLanded b cmd lctr n span k keep bad) = Kept a0 b :=
  Kept.cong (Block.passLanded_kept b cmd lctr n span k keep bad)

theorem Block.foldArgs_kept (b : Block) (s : Nat) (data : List Byte) (bad : Bool) : Kept b (Block.foldArgs b s data bad) := by
  unfold Block.foldArgs
  (repeat' split) <;> simp

@[simp] theorem Block.foldArgs_kept_iff (a0 b : Block) (s : Nat) (data : List Byte) (bad : Bool) :
    Kept a0 (Block.foldArgs b s data bad) = Kept a0 b := Kept.cong (Block.foldArgs_kept b s data bad)

theorem Block.foldStart_kept (b : Block) (s : Nat) : Kept b (Block.foldStart b s) := by
  unfold Block.foldStart
  dsimp only; (repeat' split) <;> simp

@[simp] theorem Block.foldStart_kept_iff (a0 b : Block) (s : Nat) :
    Kept a0 (Block.foldStart b s) = Kept a0 b := Kept.cong (Block.foldStart_kept b s)

theorem Block.foldCompleted_kept (b : Block) (id : Nat) : Kept b (Block.foldCompleted b id) := by
  unfold Block.foldCompleted
  (repeat' split) <;> simp

@[simp] theorem Block.foldCompleted_kept_iff (a0 b : Block) (id : Nat) :
    Kept a0 (Block.foldCompleted b id) = Kept a0 b := Kept.cong (Block.foldCompleted_kept b id)

theorem Block.foldTimeout_kept (b : Block) (s : Nat) : Kept b (Block.foldTimeout b s) := by
  unfold Block.foldTimeout
  dsimp only; (repeat' split) <;> simp

@[simp] theorem Block.foldTimeout_kept_iff (a0 b : Block) (s : Nat) :
    Kept a0 (Block.foldTimeout b s) = Kept a0 b := Kept.cong (Block.foldTimeout_kept b s)

end Sys2Proof.Machine
end

