-- ==== Sys2Proof/Laws/KeptForward.lean ====
section
/-!
SUPPORT. The forwarding core: each operation keeps the variant code and the key root.
-/

namespace Sys2Proof.Machine

theorem Block.setFpkt_kept (b : Block) (id : Nat) (f : FPkt → FPkt) : Kept b (Block.setFpkt b id f) := by
  unfold Block.setFpkt
  simp

@[simp] theorem Block.setFpkt_kept_iff (a0 b : Block) (id : Nat) (f : FPkt → FPkt) :
    Kept a0 (Block.setFpkt b id f) = Kept a0 b := Kept.cong (Block.setFpkt_kept b id f)

theorem Block.setBranch_kept (b : Block) (id : Nat) (out : Nat) (f : Branch → Branch) : Kept b (Block.setBranch b id out f) := by
  unfold Block.setBranch
  simp

@[simp] theorem Block.setBranch_kept_iff (a0 b : Block) (id : Nat) (out : Nat) (f : Branch → Branch) :
    Kept a0 (Block.setBranch b id out f) = Kept a0 b := Kept.cong (Block.setBranch_kept b id out f)

theorem Block.creditBack_kept (b : Block) (p : FPkt) (hdr : Nat) (data : Nat) : Kept b (Block.creditBack b p hdr data) := by
  unfold Block.creditBack
  simp

@[simp] theorem Block.creditBack_kept_iff (a0 b : Block) (p : FPkt) (hdr : Nat) (data : Nat) :
    Kept a0 (Block.creditBack b p hdr data) = Kept a0 b := Kept.cong (Block.creditBack_kept b p hdr data)

theorem Block.fwdSettle_kept (b : Block) (id : Nat) : Kept b (Block.fwdSettle b id) := by
  unfold Block.fwdSettle
  (repeat' split) <;> simp

@[simp] theorem Block.fwdSettle_kept_iff (a0 b : Block) (id : Nat) :
    Kept a0 (Block.fwdSettle b id) = Kept a0 b := Kept.cong (Block.fwdSettle_kept b id)

theorem Block.torn_kept (b : Block) (h : Slot) (flushed : Bool) (members : Nat) : Kept b (Block.torn b h flushed members) := by
  unfold Block.torn
  simp

@[simp] theorem Block.torn_kept_iff (a0 b : Block) (h : Slot) (flushed : Bool) (members : Nat) :
    Kept a0 (Block.torn b h flushed members) = Kept a0 b := Kept.cong (Block.torn_kept b h flushed members)

theorem Block.dropBranch_kept (b : Block) (id : Nat) (out : Nat) : Kept b (Block.dropBranch b id out) := by
  unfold Block.dropBranch
  simp

@[simp] theorem Block.dropBranch_kept_iff (a0 b : Block) (id : Nat) (out : Nat) :
    Kept a0 (Block.dropBranch b id out) = Kept a0 b := Kept.cong (Block.dropBranch_kept b id out)

theorem Block.tearBranch_kept (b : Block) (id : Nat) (out : Nat) (flushed : Bool) :
    Kept b (Block.tearBranch b id out flushed) := by
  unfold Block.tearBranch
  (repeat' split) <;> simp

@[simp] theorem Block.tearBranch_kept_iff (a0 b : Block) (id : Nat) (out : Nat) (flushed : Bool) :
    Kept a0 (Block.tearBranch b id out flushed) = Kept a0 b := Kept.cong (Block.tearBranch_kept b id out flushed)

theorem Block.hamperWrite_kept (b : Block) (id : Nat) (out : Nat) : Kept b (Block.hamperWrite b id out) := by
  unfold Block.hamperWrite
  (repeat' split) <;> simp

@[simp] theorem Block.hamperWrite_kept_iff (a0 b : Block) (id : Nat) (out : Nat) :
    Kept a0 (Block.hamperWrite b id out) = Kept a0 b := Kept.cong (Block.hamperWrite_kept b id out)

theorem Block.flushAll_kept (b : Block) (xs : List (FPkt × Branch)) : Kept b (Block.flushAll b xs) := by
  unfold Block.flushAll
  simp

@[simp] theorem Block.flushAll_kept_iff (a0 b : Block) (xs : List (FPkt × Branch)) :
    Kept a0 (Block.flushAll b xs) = Kept a0 b := Kept.cong (Block.flushAll_kept b xs)

theorem Block.flushEvents_kept (b : Block) (xs : List (FPkt × Branch)) (pair : Nat) : Kept b (Block.flushEvents b xs pair) := by
  unfold Block.flushEvents
  simp

@[simp] theorem Block.flushEvents_kept_iff (a0 b : Block) (xs : List (FPkt × Branch)) (pair : Nat) :
    Kept a0 (Block.flushEvents b xs pair) = Kept a0 b := Kept.cong (Block.flushEvents_kept b xs pair)

theorem Block.flushDown_kept (n : Nat) (b : Block)  : Kept b (Block.flushDown n b) := by
  induction n generalizing b with
  | zero => unfold Block.flushDown; simp
  | succ n ih =>
    unfold Block.flushDown
    (repeat' split) <;> simp [Kept.cong (ih _)]

@[simp] theorem Block.flushDown_kept_iff (a0 : Block) (n : Nat) (b : Block)  :
    Kept a0 (Block.flushDown n b) = Kept a0 b := Kept.cong (Block.flushDown_kept n b)

theorem Block.hamperCheck_kept (b : Block) : Kept b (Block.hamperCheck b) := by
  unfold Block.hamperCheck
  simp

@[simp] theorem Block.hamperCheck_kept_iff (a0 b : Block) :
    Kept a0 (Block.hamperCheck b) = Kept a0 b := Kept.cong (Block.hamperCheck_kept b)

theorem Block.hamperIn_kept (b : Block) (id : Nat) (out : Nat) : Kept b (Block.hamperIn b id out) := by
  unfold Block.hamperIn
  (repeat' split) <;> simp

@[simp] theorem Block.hamperIn_kept_iff (a0 b : Block) (id : Nat) (out : Nat) :
    Kept a0 (Block.hamperIn b id out) = Kept a0 b := Kept.cong (Block.hamperIn_kept b id out)

theorem Block.hamperPort_kept (b : Block) (out : Nat) : Kept b (Block.hamperPort b out) := by
  unfold Block.hamperPort
  simp

@[simp] theorem Block.hamperPort_kept_iff (a0 b : Block) (out : Nat) :
    Kept a0 (Block.hamperPort b out) = Kept a0 b := Kept.cong (Block.hamperPort_kept b out)

theorem Block.hamperRetry_kept (b : Block) : Kept b (Block.hamperRetry b) := by
  unfold Block.hamperRetry
  simp

@[simp] theorem Block.hamperRetry_kept_iff (a0 b : Block) :
    Kept a0 (Block.hamperRetry b) = Kept a0 b := Kept.cong (Block.hamperRetry_kept b)

theorem Block.hamperOut_kept (b : Block) (p : FPkt) (x : Branch) : Kept b (Block.hamperOut b p x) := by
  unfold Block.hamperOut
  simp

@[simp] theorem Block.hamperOut_kept_iff (a0 b : Block) (p : FPkt) (x : Branch) :
    Kept a0 (Block.hamperOut b p x) = Kept a0 b := Kept.cong (Block.hamperOut_kept b p x)

theorem Block.hamperRelease_kept (b : Block) (out : Nat) : Kept b (Block.hamperRelease b out) := by
  unfold Block.hamperRelease
  simp

@[simp] theorem Block.hamperRelease_kept_iff (a0 b : Block) (out : Nat) :
    Kept a0 (Block.hamperRelease b out) = Kept a0 b := Kept.cong (Block.hamperRelease_kept b out)

theorem Block.hamperBack_kept (b : Block) (id : Nat) (out : Nat) (data : List Byte) (bad : Bool) :
    Kept b (Block.hamperBack b id out data bad) := by
  unfold Block.hamperBack
  (repeat' split) <;> simp

@[simp] theorem Block.hamperBack_kept_iff (a0 b : Block) (id : Nat) (out : Nat) (data : List Byte) (bad : Bool) :
    Kept a0 (Block.hamperBack b id out data bad) = Kept a0 b := Kept.cong (Block.hamperBack_kept b id out data bad)

theorem Block.capturePut_kept (b : Block) (hdr : Slot) (input : Nat) (out : Nat) (sub : Nat) (epoch : Nat) (matches_ : Nat) :
    Kept b (Block.capturePut b hdr input out sub epoch matches_) := by
  unfold Block.capturePut
  simp

@[simp] theorem Block.capturePut_kept_iff (a0 b : Block) (hdr : Slot) (input : Nat) (out : Nat) (sub : Nat) (epoch :
    Nat) (matches_ : Nat) :
    Kept a0 (Block.capturePut b hdr input out sub epoch matches_) = Kept a0 b :=
  Kept.cong (Block.capturePut_kept b hdr input out sub epoch matches_)

theorem Block.capture_kept (b : Block) (hdr : Slot) (input : Nat) (out : Nat) (sub : Nat) (epoch : Nat) :
    Kept b (Block.capture b hdr input out sub epoch) := by
  unfold Block.capture
  simp

@[simp] theorem Block.capture_kept_iff (a0 b : Block) (hdr : Slot) (input : Nat) (out : Nat) (sub : Nat) (epoch : Nat) :
    Kept a0 (Block.capture b hdr input out sub epoch) = Kept a0 b := Kept.cong (Block.capture_kept b hdr input out sub epoch)

theorem Block.dropPkt_kept (b : Block) (p : FPkt) (counter : Option Nat) (members : Nat) :
    Kept b (Block.dropPkt b p counter members) := by
  unfold Block.dropPkt
  (repeat' split) <;> simp

@[simp] theorem Block.dropPkt_kept_iff (a0 b : Block) (p : FPkt) (counter : Option Nat) (members : Nat) :
    Kept a0 (Block.dropPkt b p counter members) = Kept a0 b := Kept.cong (Block.dropPkt_kept b p counter members)

theorem Block.addBranch_kept (b : Block) (id : Nat) (out : Nat) (epoch : Nat) (members : Nat) :
    Kept b (Block.addBranch b id out epoch members).1 := by
  unfold Block.addBranch
  (repeat' split) <;> simp

@[simp] theorem Block.addBranch_kept_iff (a0 b : Block) (id : Nat) (out : Nat) (epoch : Nat) (members : Nat) :
    Kept a0 (Block.addBranch b id out epoch members).1 = Kept a0 b := Kept.cong (Block.addBranch_kept b id out epoch members)

theorem Block.routePkt_kept (b : Block) (p : FPkt) : Kept b (Block.routePkt b p) := by
  unfold Block.routePkt
  simp

@[simp] theorem Block.routePkt_kept_iff (a0 b : Block) (p : FPkt) :
    Kept a0 (Block.routePkt b p) = Kept a0 b := Kept.cong (Block.routePkt_kept b p)

theorem Block.enterCore_kept (b : Block) (hdr : Slot) (input : Nat) (sub : Nat) (data : List Slot) :
    Kept b (Block.enterCore b hdr input sub data).1 := by
  unfold Block.enterCore
  simp

@[simp] theorem Block.enterCore_kept_iff (a0 b : Block) (hdr : Slot) (input : Nat) (sub : Nat) (data : List Slot) :
    Kept a0 (Block.enterCore b hdr input sub data).1 = Kept a0 b := Kept.cong (Block.enterCore_kept b hdr input sub data)

theorem Block.forward_kept (b : Block) (input : Nat) (lane : Nat) : Kept b (Block.forward b input lane) := by
  unfold Block.forward
  (repeat' split) <;> simp

@[simp] theorem Block.forward_kept_iff (a0 b : Block) (input : Nat) (lane : Nat) :
    Kept a0 (Block.forward b input lane) = Kept a0 b := Kept.cong (Block.forward_kept b input lane)

theorem Block.commit_kept (b : Block) (port : Nat) (lane : Nat) : Kept b (Block.commit b port lane) := by
  unfold Block.commit
  (repeat' split) <;> simp

@[simp] theorem Block.commit_kept_iff (a0 b : Block) (port : Nat) (lane : Nat) :
    Kept a0 (Block.commit b port lane) = Kept a0 b := Kept.cong (Block.commit_kept b port lane)

theorem Block.egressPump_kept (b : Block) : Kept b (Block.egressPump b) := by
  unfold Block.egressPump
  simp

@[simp] theorem Block.egressPump_kept_iff (a0 b : Block) :
    Kept a0 (Block.egressPump b) = Kept a0 b := Kept.cong (Block.egressPump_kept b)

theorem Block.releaseHeld_kept (b : Block) : Kept b (Block.releaseHeld b) := by
  unfold Block.releaseHeld
  simp

@[simp] theorem Block.releaseHeld_kept_iff (a0 b : Block) :
    Kept a0 (Block.releaseHeld b) = Kept a0 b := Kept.cong (Block.releaseHeld_kept b)

theorem Block.epochCheck_kept (b : Block) : Kept b (Block.epochCheck b) := by
  unfold Block.epochCheck
  simp

@[simp] theorem Block.epochCheck_kept_iff (a0 b : Block) :
    Kept a0 (Block.epochCheck b) = Kept a0 b := Kept.cong (Block.epochCheck_kept b)

theorem Block.quietCheck_kept (b : Block) : Kept b (Block.quietCheck b) := by
  unfold Block.quietCheck
  simp

@[simp] theorem Block.quietCheck_kept_iff (a0 b : Block) :
    Kept a0 (Block.quietCheck b) = Kept a0 b := Kept.cong (Block.quietCheck_kept b)

theorem Block.covers_kept (b : Block) : Kept b (Block.covers b) := by
  unfold Block.covers
  simp

@[simp] theorem Block.covers_kept_iff (a0 b : Block) :
    Kept a0 (Block.covers b) = Kept a0 b := Kept.cong (Block.covers_kept b)

theorem Block.reroute_kept (b : Block) : Kept b (Block.reroute b) := by
  unfold Block.reroute
  rw [foldl_kept_iff]
  · simp
  · rintro z ⟨p, x⟩
    dsimp only
    (repeat' split) <;> simp

@[simp] theorem Block.reroute_kept_iff (a0 b : Block) :
    Kept a0 (Block.reroute b) = Kept a0 b := Kept.cong (Block.reroute_kept b)

theorem Block.epochSwitch_kept (b : Block) : Kept b (Block.epochSwitch b) := by
  unfold Block.epochSwitch
  simp

@[simp] theorem Block.epochSwitch_kept_iff (a0 b : Block) :
    Kept a0 (Block.epochSwitch b) = Kept a0 b := Kept.cong (Block.epochSwitch_kept b)

theorem Block.epochRetire_kept (b : Block) : Kept b (Block.epochRetire b) := by
  unfold Block.epochRetire
  simp

@[simp] theorem Block.epochRetire_kept_iff (a0 b : Block) :
    Kept a0 (Block.epochRetire b) = Kept a0 b := Kept.cong (Block.epochRetire_kept b)

theorem Block.stallFlag_kept (b : Block) (port : Nat) (lane : Nat) : Kept b (Block.stallFlag b port lane) := by
  unfold Block.stallFlag
  simp

@[simp] theorem Block.stallFlag_kept_iff (a0 b : Block) (port : Nat) (lane : Nat) :
    Kept a0 (Block.stallFlag b port lane) = Kept a0 b := Kept.cong (Block.stallFlag_kept b port lane)

theorem Block.hamperFlush_kept (b : Block) (v : Word) : Kept b (Block.hamperFlush b v) := by
  unfold Block.hamperFlush
  simp

@[simp] theorem Block.hamperFlush_kept_iff (a0 b : Block) (v : Word) :
    Kept a0 (Block.hamperFlush b v) = Kept a0 b := Kept.cong (Block.hamperFlush_kept b v)

theorem Block.hamperFlushDone_kept (b : Block) : Kept b (Block.hamperFlushDone b) := by
  unfold Block.hamperFlushDone
  simp

@[simp] theorem Block.hamperFlushDone_kept_iff (a0 b : Block) :
    Kept a0 (Block.hamperFlushDone b) = Kept a0 b := Kept.cong (Block.hamperFlushDone_kept b)

end Sys2Proof.Machine
end

