-- ==== Sys2Proof/Laws/KeptLink.lean ====
section
/-!
SUPPORT. The link layer: each operation keeps the variant code and the key root.
-/

namespace Sys2Proof.Machine

theorem Block.setReached_kept (b : Block) (p : Nat) : Kept b (Block.setReached b p) := by
  unfold Block.setReached
  simp

@[simp] theorem Block.setReached_kept_iff (a0 b : Block) (p : Nat) :
    Kept a0 (Block.setReached b p) = Kept a0 b := Kept.cong (Block.setReached_kept b p)

theorem Block.setLinkState_kept (b : Block) (p : Nat) (st : Nat) : Kept b (Block.setLinkState b p st) := by
  unfold Block.setLinkState
  simp

@[simp] theorem Block.setLinkState_kept_iff (a0 b : Block) (p : Nat) (st : Nat) :
    Kept a0 (Block.setLinkState b p st) = Kept a0 b := Kept.cong (Block.setLinkState_kept b p st)

theorem Block.killPkt_kept (b : Block) (p : Nat) (id : Nat) (note : Bool) : Kept b (Block.killPkt b p id note) := by
  unfold Block.killPkt
  (repeat' split) <;> simp

@[simp] theorem Block.killPkt_kept_iff (a0 b : Block) (p : Nat) (id : Nat) (note : Bool) :
    Kept a0 (Block.killPkt b p id note) = Kept a0 b := Kept.cong (Block.killPkt_kept b p id note)

theorem Block.portDown_kept (b : Block) (p : Nat) (cause : Nat) : Kept b (Block.portDown b p cause) := by
  unfold Block.portDown
  simp

@[simp] theorem Block.portDown_kept_iff (a0 b : Block) (p : Nat) (cause : Nat) :
    Kept a0 (Block.portDown b p cause) = Kept a0 b := Kept.cong (Block.portDown_kept b p cause)

theorem Block.onWire_kept (b : Block) (p : Nat) (typ : Nat) (seq : Nat) (body : List Slot) (echo : Nat) :
    Kept b (Block.onWire b p typ seq body echo) := by
  unfold Block.onWire
  simp

@[simp] theorem Block.onWire_kept_iff (a0 b : Block) (p : Nat) (typ : Nat) (seq : Nat) (body : List Slot) (echo : Nat) :
    Kept a0 (Block.onWire b p typ seq body echo) = Kept a0 b := Kept.cong (Block.onWire_kept b p typ seq body echo)

theorem Block.sendIdle_kept (b : Block) (p : Nat) : Kept b (Block.sendIdle b p) := by
  unfold Block.sendIdle
  simp

@[simp] theorem Block.sendIdle_kept_iff (a0 b : Block) (p : Nat) :
    Kept a0 (Block.sendIdle b p) = Kept a0 b := Kept.cong (Block.sendIdle_kept b p)

theorem Block.spillOldest_kept (b : Block) (p : Nat) : Kept b (Block.spillOldest b p) := by
  unfold Block.spillOldest
  dsimp only; (repeat' split) <;> simp

@[simp] theorem Block.spillOldest_kept_iff (a0 b : Block) (p : Nat) :
    Kept a0 (Block.spillOldest b p) = Kept a0 b := Kept.cong (Block.spillOldest_kept b p)

theorem Block.sendNew_kept (b : Block) (p : Nat) (typ : Nat) (body : List Slot) (echo : Nat) (hdrs : List (Slot × Nat)) (epochs
    : List (Nat × Nat)) :
    Kept b (Block.sendNew b p typ body echo hdrs epochs) := by
  unfold Block.sendNew
  simp

@[simp] theorem Block.sendNew_kept_iff (a0 b : Block) (p : Nat) (typ : Nat) (body : List Slot) (echo : Nat) (hdrs :
    List (Slot × Nat)) (epochs : List (Nat × Nat)) :
    Kept a0 (Block.sendNew b p typ body echo hdrs epochs) = Kept a0 b :=
  Kept.cong (Block.sendNew_kept b p typ body echo hdrs epochs)

theorem Block.sentSlot_kept (b : Block) (p : Nat) (lane : Nat) (x : FPkt) (y : Branch) :
    Kept b (Block.sentSlot b p lane x y) := by
  unfold Block.sentSlot
  simp

@[simp] theorem Block.sentSlot_kept_iff (a0 b : Block) (p : Nat) (lane : Nat) (x : FPkt) (y : Branch) :
    Kept a0 (Block.sentSlot b p lane x y) = Kept a0 b := Kept.cong (Block.sentSlot_kept b p lane x y)

theorem Block.fill_kept (n : Nat) (b : Block) (p : Nat) (a : FlitAcc) : Kept b (Block.fill n p b a).1 := by
  induction n generalizing b a with
  | zero => unfold Block.fill; simp
  | succ n ih =>
    unfold Block.fill
    (repeat' split) <;> simp [Kept.cong (ih _ _)]

@[simp] theorem Block.fill_kept_iff (a0 : Block) (n : Nat) (b : Block) (p : Nat) (a : FlitAcc) :
    Kept a0 (Block.fill n p b a).1 = Kept a0 b := Kept.cong (Block.fill_kept n b p a)

theorem Block.replayStep_kept (b : Block) (p : Nat) (a : Nat) : Kept b (Block.replayStep b p a) := by
  unfold Block.replayStep
  dsimp only; (repeat' split) <;> simp

@[simp] theorem Block.replayStep_kept_iff (a0 b : Block) (p : Nat) (a : Nat) :
    Kept a0 (Block.replayStep b p a) = Kept a0 b := Kept.cong (Block.replayStep_kept b p a)

theorem Block.laneSend_kept (b : Block) (p : Nat) : Kept b (Block.laneSend b p) := by
  unfold Block.laneSend
  simp

@[simp] theorem Block.laneSend_kept_iff (a0 b : Block) (p : Nat) :
    Kept a0 (Block.laneSend b p) = Kept a0 b := Kept.cong (Block.laneSend_kept b p)

theorem Block.flitSend_kept (b : Block) (p : Nat) (picks : List Nat) : Kept b (Block.flitSend b p picks) := by
  unfold Block.flitSend
  dsimp only; (repeat' split) <;> simp

@[simp] theorem Block.flitSend_kept_iff (a0 b : Block) (p : Nat) (picks : List Nat) :
    Kept a0 (Block.flitSend b p picks) = Kept a0 b := Kept.cong (Block.flitSend_kept b p picks)

theorem Block.wantNak_kept (b : Block) (p : Nat) : Kept b (Block.wantNak b p) := by
  unfold Block.wantNak
  simp

@[simp] theorem Block.wantNak_kept_iff (a0 b : Block) (p : Nat) :
    Kept a0 (Block.wantNak b p) = Kept a0 b := Kept.cong (Block.wantNak_kept b p)

theorem Block.applyAck_kept (b : Block) (p : Nat) (a : Nat) : Kept b (Block.applyAck b p a) := by
  unfold Block.applyAck
  simp

@[simp] theorem Block.applyAck_kept_iff (a0 b : Block) (p : Nat) (a : Nat) :
    Kept a0 (Block.applyAck b p a) = Kept a0 b := Kept.cong (Block.applyAck_kept b p a)

theorem Block.applyCredit_kept (b : Block) (p : Nat) (sel : Nat) (low : Nat) : Kept b (Block.applyCredit b p sel low) := by
  unfold Block.applyCredit
  simp

@[simp] theorem Block.applyCredit_kept_iff (a0 b : Block) (p : Nat) (sel : Nat) (low : Nat) :
    Kept a0 (Block.applyCredit b p sel low) = Kept a0 b := Kept.cong (Block.applyCredit_kept b p sel low)

theorem Block.badFlits_kept (b : Block) (p : Nat) (ps : List Nat) : Kept b (Block.badFlits b p ps) := by
  unfold Block.badFlits
  simp

@[simp] theorem Block.badFlits_kept_iff (a0 b : Block) (p : Nat) (ps : List Nat) :
    Kept a0 (Block.badFlits b p ps) = Kept a0 b := Kept.cong (Block.badFlits_kept b p ps)

theorem Block.creaseRecord_kept (b : Block) (p : Nat) (hdr : Slot) : Kept b (Block.creaseRecord b p hdr) := by
  unfold Block.creaseRecord
  simp

@[simp] theorem Block.creaseRecord_kept_iff (a0 b : Block) (p : Nat) (hdr : Slot) :
    Kept a0 (Block.creaseRecord b p hdr) = Kept a0 b := Kept.cong (Block.creaseRecord_kept b p hdr)

theorem Block.openPkt_kept (b : Block) (p : Nat) (s : Slot) : Kept b (Block.openPkt b p s).1 := by
  unfold Block.openPkt
  simp

@[simp] theorem Block.openPkt_kept_iff (a0 b : Block) (p : Nat) (s : Slot) :
    Kept a0 (Block.openPkt b p s).1 = Kept a0 b := Kept.cong (Block.openPkt_kept b p s)

theorem Block.dataSlot_kept (b : Block) (p : Nat) (lane : Nat) (s : Slot) : Kept b (Block.dataSlot b p lane s).1 := by
  unfold Block.dataSlot
  dsimp only; (repeat' split) <;> simp

@[simp] theorem Block.dataSlot_kept_iff (a0 b : Block) (p : Nat) (lane : Nat) (s : Slot) :
    Kept a0 (Block.dataSlot b p lane s).1 = Kept a0 b := Kept.cong (Block.dataSlot_kept b p lane s)

theorem Block.resumeAt_kept (b : Block) (p : Nat) (s : Slot) : Kept b (Block.resumeAt b p s).1 := by
  unfold Block.resumeAt
  dsimp only; (repeat' split) <;> simp

@[simp] theorem Block.resumeAt_kept_iff (a0 b : Block) (p : Nat) (s : Slot) :
    Kept a0 (Block.resumeAt b p s).1 = Kept a0 b := Kept.cong (Block.resumeAt_kept b p s)

theorem Block.parseSlot_kept (b : Block) (p : Nat) (s : Slot) (lead : Bool) : Kept b (Block.parseSlot b p s lead).1 := by
  unfold Block.parseSlot
  dsimp only; (repeat' split) <;> simp

@[simp] theorem Block.parseSlot_kept_iff (a0 b : Block) (p : Nat) (s : Slot) (lead : Bool) :
    Kept a0 (Block.parseSlot b p s lead).1 = Kept a0 b := Kept.cong (Block.parseSlot_kept b p s lead)

theorem Block.parseFlit_kept (b : Block) (p : Nat) (f : Flit) : Kept b (Block.parseFlit b p f) := by
  unfold Block.parseFlit
  simp

@[simp] theorem Block.parseFlit_kept_iff (a0 b : Block) (p : Nat) (f : Flit) :
    Kept a0 (Block.parseFlit b p f) = Kept a0 b := Kept.cong (Block.parseFlit_kept b p f)

theorem Block.creditAdv_kept (b : Block) (p : Nat) (s : Slot) : Kept b (Block.creditAdv b p s) := by
  unfold Block.creditAdv
  simp

@[simp] theorem Block.creditAdv_kept_iff (a0 b : Block) (p : Nat) (s : Slot) :
    Kept a0 (Block.creditAdv b p s) = Kept a0 b := Kept.cong (Block.creditAdv_kept b p s)

theorem Block.controlFlit_kept (b : Block) (p : Nat) (f : Flit) : Kept b (Block.controlFlit b p f) := by
  unfold Block.controlFlit
  simp

@[simp] theorem Block.controlFlit_kept_iff (a0 b : Block) (p : Nat) (f : Flit) :
    Kept a0 (Block.controlFlit b p f) = Kept a0 b := Kept.cong (Block.controlFlit_kept b p f)

theorem Block.tryUp_kept (b : Block) (p : Nat) : Kept b (Block.tryUp b p) := by
  unfold Block.tryUp
  simp

@[simp] theorem Block.tryUp_kept_iff (a0 b : Block) (p : Nat) :
    Kept a0 (Block.tryUp b p) = Kept a0 b := Kept.cong (Block.tryUp_kept b p)

theorem Block.nextAdv_kept (b : Block) (p : Nat) (m : Slot) : Kept b (Block.nextAdv b p m) := by
  unfold Block.nextAdv
  dsimp only; (repeat' split) <;> simp

@[simp] theorem Block.nextAdv_kept_iff (a0 b : Block) (p : Nat) (m : Slot) :
    Kept a0 (Block.nextAdv b p m) = Kept a0 b := Kept.cong (Block.nextAdv_kept b p m)

theorem Block.taken_kept (b : Block) (p : Nat) (d : Deframer) (g : Found) : Kept b (Block.taken b p d g) := by
  unfold Block.taken
  simp

@[simp] theorem Block.taken_kept_iff (a0 b : Block) (p : Nat) (d : Deframer) (g : Found) :
    Kept a0 (Block.taken b p d g) = Kept a0 b := Kept.cong (Block.taken_kept b p d g)

theorem Block.markerTaken_kept (b : Block) (p : Nat) (air : Air) : Kept b (Block.markerTaken b p air) := by
  unfold Block.markerTaken
  (repeat' split) <;> simp

@[simp] theorem Block.markerTaken_kept_iff (a0 b : Block) (p : Nat) (air : Air) :
    Kept a0 (Block.markerTaken b p air) = Kept a0 b := Kept.cong (Block.markerTaken_kept b p air)

theorem Block.markerSearch_kept (b : Block) (p : Nat) (air : Air) : Kept b (Block.markerSearch b p air) := by
  unfold Block.markerSearch
  simp

@[simp] theorem Block.markerSearch_kept_iff (a0 b : Block) (p : Nat) (air : Air) :
    Kept a0 (Block.markerSearch b p air) = Kept a0 b := Kept.cong (Block.markerSearch_kept b p air)

theorem Block.marker_kept (b : Block) (p : Nat) (air : Air) (mark : Air) : Kept b (Block.marker b p air mark) := by
  unfold Block.marker
  simp

@[simp] theorem Block.marker_kept_iff (a0 b : Block) (p : Nat) (air : Air) (mark : Air) :
    Kept a0 (Block.marker b p air mark) = Kept a0 b := Kept.cong (Block.marker_kept b p air mark)

theorem Block.takeSeq_kept (b : Block) (p : Nat) (f : Flit) (typ : Nat) (d : Nat) : Kept b (Block.takeSeq b p f typ d) := by
  unfold Block.takeSeq
  simp

@[simp] theorem Block.takeSeq_kept_iff (a0 b : Block) (p : Nat) (f : Flit) (typ : Nat) (d : Nat) :
    Kept a0 (Block.takeSeq b p f typ d) = Kept a0 b := Kept.cong (Block.takeSeq_kept b p f typ d)

theorem Block.onNak_kept (b : Block) (p : Nat) (a : Nat) : Kept b (Block.onNak b p a) := by
  unfold Block.onNak
  dsimp only; (repeat' split) <;> simp

@[simp] theorem Block.onNak_kept_iff (a0 b : Block) (p : Nat) (a : Nat) :
    Kept a0 (Block.onNak b p a) = Kept a0 b := Kept.cong (Block.onNak_kept b p a)

theorem Block.acceptFlit_kept (b : Block) (p : Nat) (f : Flit) (typ : Nat) : Kept b (Block.acceptFlit b p f typ) := by
  unfold Block.acceptFlit
  simp

@[simp] theorem Block.acceptFlit_kept_iff (a0 b : Block) (p : Nat) (f : Flit) (typ : Nat) :
    Kept a0 (Block.acceptFlit b p f typ) = Kept a0 b := Kept.cong (Block.acceptFlit_kept b p f typ)

theorem Block.recvFlit_kept (b : Block) (p : Nat) (air : Air) (typ : Nat) (now : Nat) :
    Kept b (Block.recvFlit b p air typ now) := by
  unfold Block.recvFlit
  dsimp only; (repeat' split) <;> simp

@[simp] theorem Block.recvFlit_kept_iff (a0 b : Block) (p : Nat) (air : Air) (typ : Nat) (now : Nat) :
    Kept a0 (Block.recvFlit b p air typ now) = Kept a0 b := Kept.cong (Block.recvFlit_kept b p air typ now)

theorem Block.replayTimeout_kept (b : Block) (p : Nat) : Kept b (Block.replayTimeout b p) := by
  unfold Block.replayTimeout
  simp

@[simp] theorem Block.replayTimeout_kept_iff (a0 b : Block) (p : Nat) :
    Kept a0 (Block.replayTimeout b p) = Kept a0 b := Kept.cong (Block.replayTimeout_kept b p)

theorem Block.initTimeout_kept (b : Block) (p : Nat) : Kept b (Block.initTimeout b p) := by
  unfold Block.initTimeout
  simp

@[simp] theorem Block.initTimeout_kept_iff (a0 b : Block) (p : Nat) :
    Kept a0 (Block.initTimeout b p) = Kept a0 b := Kept.cong (Block.initTimeout_kept b p)

theorem Block.replayBack_kept (b : Block) (p : Nat) (seq : Nat) (tag : Bool) (data : List Byte) (bad : Bool) :
    Kept b (Block.replayBack b p seq tag data bad) := by
  unfold Block.replayBack
  simp

@[simp] theorem Block.replayBack_kept_iff (a0 b : Block) (p : Nat) (seq : Nat) (tag : Bool) (data : List Byte) (bad :
    Bool) :
    Kept a0 (Block.replayBack b p seq tag data bad) = Kept a0 b := Kept.cong (Block.replayBack_kept b p seq tag data bad)

theorem Block.enterInit_kept (b : Block) (p : Nat) (mode : Nat) (version : Nat) : Kept b (Block.enterInit b p mode version) := by
  unfold Block.enterInit
  simp

@[simp] theorem Block.enterInit_kept_iff (a0 b : Block) (p : Nat) (mode : Nat) (version : Nat) :
    Kept a0 (Block.enterInit b p mode version) = Kept a0 b := Kept.cong (Block.enterInit_kept b p mode version)

theorem Block.grantBudgets_kept (b : Block) : Kept b (Block.grantBudgets b) := by
  unfold Block.grantBudgets
  simp

@[simp] theorem Block.grantBudgets_kept_iff (a0 b : Block) :
    Kept a0 (Block.grantBudgets b) = Kept a0 b := Kept.cong (Block.grantBudgets_kept b)

end Sys2Proof.Machine
end

