-- ==== Sys2Proof/Laws/KeptLanes.lean ====
section
/-!
SUPPORT. Lanes and the pilot lane: each operation keeps the variant code and the key root.
-/

namespace Sys2Proof.Machine

theorem Block.toDown_kept (b : Block) (p : Nat) (cause : Nat) : Kept b (Block.toDown b p cause) := by
  unfold Block.toDown
  simp

@[simp] theorem Block.toDown_kept_iff (a0 b : Block) (p : Nat) (cause : Nat) :
    Kept a0 (Block.toDown b p cause) = Kept a0 b := Kept.cong (Block.toDown_kept b p cause)

theorem Block.startTraining_kept (b : Block) (p : Nat) (keep : Bool) : Kept b (Block.startTraining b p keep) := by
  unfold Block.startTraining
  simp

@[simp] theorem Block.startTraining_kept_iff (a0 b : Block) (p : Nat) (keep : Bool) :
    Kept a0 (Block.startTraining b p keep) = Kept a0 b := Kept.cong (Block.startTraining_kept b p keep)

theorem Block.endTraining_kept (b : Block) (p : Nat) (cause : Nat) : Kept b (Block.endTraining b p cause) := by
  unfold Block.endTraining
  simp

@[simp] theorem Block.endTraining_kept_iff (a0 b : Block) (p : Nat) (cause : Nat) :
    Kept a0 (Block.endTraining b p cause) = Kept a0 b := Kept.cong (Block.endTraining_kept b p cause)

theorem Block.enterRate_kept (b : Block) (p : Nat) (cause : Nat) : Kept b (Block.enterRate b p cause) := by
  unfold Block.enterRate
  dsimp only; (repeat' split) <;> simp

@[simp] theorem Block.enterRate_kept_iff (a0 b : Block) (p : Nat) (cause : Nat) :
    Kept a0 (Block.enterRate b p cause) = Kept a0 b := Kept.cong (Block.enterRate_kept b p cause)

theorem Block.enterAdapt_kept (b : Block) (p : Nat) : Kept b (Block.enterAdapt b p) := by
  unfold Block.enterAdapt
  simp

@[simp] theorem Block.enterAdapt_kept_iff (a0 b : Block) (p : Nat) :
    Kept a0 (Block.enterAdapt b p) = Kept a0 b := Kept.cong (Block.enterAdapt_kept b p)

theorem Block.writeStarch_kept (b : Block) (p : Nat) : Kept b (Block.writeStarch b p) := by
  unfold Block.writeStarch
  simp

@[simp] theorem Block.writeStarch_kept_iff (a0 b : Block) (p : Nat) :
    Kept a0 (Block.writeStarch b p) = Kept a0 b := Kept.cong (Block.writeStarch_kept b p)

theorem Block.enterSeam_kept (b : Block) (p : Nat) : Kept b (Block.enterSeam b p) := by
  unfold Block.enterSeam
  simp

@[simp] theorem Block.enterSeam_kept_iff (a0 b : Block) (p : Nat) :
    Kept a0 (Block.enterSeam b p) = Kept a0 b := Kept.cong (Block.enterSeam_kept b p)

theorem Block.enterAlign_kept (b : Block) (p : Nat) : Kept b (Block.enterAlign b p) := by
  unfold Block.enterAlign
  simp

@[simp] theorem Block.enterAlign_kept_iff (a0 b : Block) (p : Nat) :
    Kept a0 (Block.enterAlign b p) = Kept a0 b := Kept.cong (Block.enterAlign_kept b p)

theorem Block.enterFec_kept (b : Block) (p : Nat) : Kept b (Block.enterFec b p) := by
  unfold Block.enterFec
  simp

@[simp] theorem Block.enterFec_kept_iff (a0 b : Block) (p : Nat) :
    Kept a0 (Block.enterFec b p) = Kept a0 b := Kept.cong (Block.enterFec_kept b p)

theorem Block.enterStep_kept (b : Block) (p : Nat) (k : Nat) : Kept b (Block.enterStep b p k) := by
  unfold Block.enterStep
  simp

@[simp] theorem Block.enterStep_kept_iff (a0 b : Block) (p : Nat) (k : Nat) :
    Kept a0 (Block.enterStep b p k) = Kept a0 b := Kept.cong (Block.enterStep_kept b p k)

theorem Block.advance_kept (b : Block) (p : Nat) : Kept b (Block.advance b p) := by
  unfold Block.advance
  simp

@[simp] theorem Block.advance_kept_iff (a0 b : Block) (p : Nat) :
    Kept a0 (Block.advance b p) = Kept a0 b := Kept.cong (Block.advance_kept b p)

theorem Block.stepDone_kept (b : Block) (p : Nat) (k : Nat) : Kept b (Block.stepDone b p k) := by
  unfold Block.stepDone
  simp

@[simp] theorem Block.stepDone_kept_iff (a0 b : Block) (p : Nat) (k : Nat) :
    Kept a0 (Block.stepDone b p k) = Kept a0 b := Kept.cong (Block.stepDone_kept b p k)

theorem Block.stepFail_kept (b : Block) (p : Nat) (cause : Nat) : Kept b (Block.stepFail b p cause) := by
  unfold Block.stepFail
  simp

@[simp] theorem Block.stepFail_kept_iff (a0 b : Block) (p : Nat) (cause : Nat) :
    Kept a0 (Block.stepFail b p cause) = Kept a0 b := Kept.cong (Block.stepFail_kept b p cause)

theorem Block.stepTimeout_kept (b : Block) (p : Nat) : Kept b (Block.stepTimeout b p) := by
  unfold Block.stepTimeout
  simp

@[simp] theorem Block.stepTimeout_kept_iff (a0 b : Block) (p : Nat) :
    Kept a0 (Block.stepTimeout b p) = Kept a0 b := Kept.cong (Block.stepTimeout_kept b p)

theorem Block.pilotStep_kept (b : Block) (p : Nat) : Kept b (Block.pilotStep b p) := by
  unfold Block.pilotStep
  simp

@[simp] theorem Block.pilotStep_kept_iff (a0 b : Block) (p : Nat) :
    Kept a0 (Block.pilotStep b p) = Kept a0 b := Kept.cong (Block.pilotStep_kept b p)

theorem Block.orderStep_kept (b : Block) (p : Nat) (ids : Air) : Kept b (Block.orderStep b p ids) := by
  unfold Block.orderStep
  simp

@[simp] theorem Block.orderStep_kept_iff (a0 b : Block) (p : Nat) (ids : Air) :
    Kept a0 (Block.orderStep b p ids) = Kept a0 b := Kept.cong (Block.orderStep_kept b p ids)

theorem Block.fomStep_kept (b : Block) (p : Nat) (wins : List (List (Nat × List Nat))) (ehs : List Nat) :
    Kept b (Block.fomStep b p wins ehs) := by
  unfold Block.fomStep
  simp

@[simp] theorem Block.fomStep_kept_iff (a0 b : Block) (p : Nat) (wins : List (List (Nat × List Nat))) (ehs : List Nat) :
    Kept a0 (Block.fomStep b p wins ehs) = Kept a0 b := Kept.cong (Block.fomStep_kept b p wins ehs)

theorem Block.testWindow_kept (b : Block) (p : Nat) (wins : List (List (Nat × List Nat))) :
    Kept b (Block.testWindow b p wins) := by
  unfold Block.testWindow
  simp

@[simp] theorem Block.testWindow_kept_iff (a0 b : Block) (p : Nat) (wins : List (List (Nat × List Nat))) :
    Kept a0 (Block.testWindow b p wins) = Kept a0 b := Kept.cong (Block.testWindow_kept b p wins)

theorem Block.fomWindow_kept (b : Block) (p : Nat) (wins : List (List (Nat × List Nat))) (ehs : List Nat) :
    Kept b (Block.fomWindow b p wins ehs) := by
  unfold Block.fomWindow
  simp

@[simp] theorem Block.fomWindow_kept_iff (a0 b : Block) (p : Nat) (wins : List (List (Nat × List Nat))) (ehs : List
    Nat) :
    Kept a0 (Block.fomWindow b p wins ehs) = Kept a0 b := Kept.cong (Block.fomWindow_kept b p wins ehs)

theorem Block.adaptStep_kept (b : Block) (p : Nat) (settings : List (Nat × Nat × List Nat)) :
    Kept b (Block.adaptStep b p settings) := by
  unfold Block.adaptStep
  simp

@[simp] theorem Block.adaptStep_kept_iff (a0 b : Block) (p : Nat) (settings : List (Nat × Nat × List Nat)) :
    Kept a0 (Block.adaptStep b p settings) = Kept a0 b := Kept.cong (Block.adaptStep_kept b p settings)

theorem Block.alignStep_kept (b : Block) (p : Nat) : Kept b (Block.alignStep b p) := by
  unfold Block.alignStep
  simp

@[simp] theorem Block.alignStep_kept_iff (a0 b : Block) (p : Nat) :
    Kept a0 (Block.alignStep b p) = Kept a0 b := Kept.cong (Block.alignStep_kept b p)

theorem Block.fecStep_kept (b : Block) (p : Nat) : Kept b (Block.fecStep b p) := by
  unfold Block.fecStep
  simp

@[simp] theorem Block.fecStep_kept_iff (a0 b : Block) (p : Nat) :
    Kept a0 (Block.fecStep b p) = Kept a0 b := Kept.cong (Block.fecStep_kept b p)

theorem Block.pilotLost_kept (b : Block) (p : Nat) : Kept b (Block.pilotLost b p) := by
  unfold Block.pilotLost
  simp

@[simp] theorem Block.pilotLost_kept_iff (a0 b : Block) (p : Nat) :
    Kept a0 (Block.pilotLost b p) = Kept a0 b := Kept.cong (Block.pilotLost_kept b p)

theorem Block.pilotSee_kept (b : Block) (p : Nat) (m : List PilotBlock) : Kept b (Block.pilotSee b p m) := by
  unfold Block.pilotSee
  simp

@[simp] theorem Block.pilotSee_kept_iff (a0 b : Block) (p : Nat) (m : List PilotBlock) :
    Kept a0 (Block.pilotSee b p m) = Kept a0 b := Kept.cong (Block.pilotSee_kept b p m)

theorem Block.pilotTake_kept (b : Block) (p : Nat) (m : List PilotBlock) : Kept b (Block.pilotTake b p m).1 := by
  unfold Block.pilotTake
  simp

@[simp] theorem Block.pilotTake_kept_iff (a0 b : Block) (p : Nat) (m : List PilotBlock) :
    Kept a0 (Block.pilotTake b p m).1 = Kept a0 b := Kept.cong (Block.pilotTake_kept b p m)

theorem Block.pilotIn_kept (b : Block) (p t : Nat) (m : List PilotBlock) (go : Block → PilotMsg → Block) (h : ∀ z x, Kept z (go
    z x)) :
    Kept b (Block.pilotIn b p t m go) := by
  have e : Kept b (b.pilotTake p m).1 := by simp
  unfold Block.pilotIn
  revert e
  cases b.pilotTake p m with
  | mk c r =>
    cases r <;> intro e <;> dsimp only <;> (repeat' split) <;>
      first | exact e | exact Kept.rfl | exact e.trans (h _ _)

@[simp] theorem Block.pilotIn_kept_iff (a b : Block) (p t : Nat) (m : List PilotBlock) (go : Block → PilotMsg → Block) (h : ∀ z
    x, Kept z (go z x)) :
    Kept a (Block.pilotIn b p t m go) = Kept a b := Kept.cong (Block.pilotIn_kept b p t m go h)

theorem Block.pilotDiscard_kept (b : Block) (p : Nat) (m : List PilotBlock) : Kept b (Block.pilotDiscard b p m) := by
  have e : Kept b (b.pilotTake p m).1 := by simp
  unfold Block.pilotDiscard
  revert e
  cases b.pilotTake p m with
  | mk c r =>
    cases r <;> intro e <;> dsimp only <;> (repeat' split) <;>
      first | exact e | exact Kept.rfl

@[simp] theorem Block.pilotDiscard_kept_iff (a0 b : Block) (p : Nat) (m : List PilotBlock) :
    Kept a0 (Block.pilotDiscard b p m) = Kept a0 b := Kept.cong (Block.pilotDiscard_kept b p m)

theorem Block.pilotIdles_kept (b : Block) (p : Nat) (n : Nat) : Kept b (Block.pilotIdles b p n) := by
  unfold Block.pilotIdles
  simp

@[simp] theorem Block.pilotIdles_kept_iff (a0 b : Block) (p : Nat) (n : Nat) :
    Kept a0 (Block.pilotIdles b p n) = Kept a0 b := Kept.cong (Block.pilotIdles_kept b p n)

theorem Block.pilotSend_kept (b : Block) (p : Nat) (t : Nat) : Kept b (Block.pilotSend b p t) := by
  unfold Block.pilotSend
  dsimp only; (repeat' split) <;> simp

@[simp] theorem Block.pilotSend_kept_iff (a0 b : Block) (p : Nat) (t : Nat) :
    Kept a0 (Block.pilotSend b p t) = Kept a0 b := Kept.cong (Block.pilotSend_kept b p t)

theorem Block.onLinkState_kept (b : Block) (p : Nat) (m : PilotMsg) : Kept b (Block.onLinkState b p m) := by
  unfold Block.onLinkState
  simp

@[simp] theorem Block.onLinkState_kept_iff (a0 b : Block) (p : Nat) (m : PilotMsg) :
    Kept a0 (Block.onLinkState b p m) = Kept a0 b := Kept.cong (Block.onLinkState_kept b p m)

theorem Block.onTrain_kept (b : Block) (p : Nat) (m : PilotMsg) : Kept b (Block.onTrain b p m) := by
  unfold Block.onTrain
  simp

@[simp] theorem Block.onTrain_kept_iff (a0 b : Block) (p : Nat) (m : PilotMsg) :
    Kept a0 (Block.onTrain b p m) = Kept a0 b := Kept.cong (Block.onTrain_kept b p m)

theorem Block.onCaps_kept (b : Block) (p : Nat) (m : PilotMsg) : Kept b (Block.onCaps b p m) := by
  unfold Block.onCaps
  simp

@[simp] theorem Block.onCaps_kept_iff (a0 b : Block) (p : Nat) (m : PilotMsg) :
    Kept a0 (Block.onCaps b p m) = Kept a0 b := Kept.cong (Block.onCaps_kept b p m)

theorem Block.pilotLocked_kept (b : Block) (p : Nat) (m : List PilotBlock) : Kept b (Block.pilotLocked b p m) := by
  unfold Block.pilotLocked
  simp

@[simp] theorem Block.pilotLocked_kept_iff (a0 b : Block) (p : Nat) (m : List PilotBlock) :
    Kept a0 (Block.pilotLocked b p m) = Kept a0 b := Kept.cong (Block.pilotLocked_kept b p m)

theorem Block.pilotLossTimeout_kept (b : Block) (p : Nat) : Kept b (Block.pilotLossTimeout b p) := by
  unfold Block.pilotLossTimeout
  simp

@[simp] theorem Block.pilotLossTimeout_kept_iff (a0 b : Block) (p : Nat) :
    Kept a0 (Block.pilotLossTimeout b p) = Kept a0 b := Kept.cong (Block.pilotLossTimeout_kept b p)

theorem Block.delaySend_kept (b : Block) (p : Nat) (now : Nat) : Kept b (Block.delaySend b p now) := by
  unfold Block.delaySend
  simp

@[simp] theorem Block.delaySend_kept_iff (a0 b : Block) (p : Nat) (now : Nat) :
    Kept a0 (Block.delaySend b p now) = Kept a0 b := Kept.cong (Block.delaySend_kept b p now)

theorem Block.onDelayReq_kept (b : Block) (p : Nat) (m : PilotMsg) (t2 : Nat) (t3 : Nat) :
    Kept b (Block.onDelayReq b p m t2 t3) := by
  unfold Block.onDelayReq
  simp

@[simp] theorem Block.onDelayReq_kept_iff (a0 b : Block) (p : Nat) (m : PilotMsg) (t2 : Nat) (t3 : Nat) :
    Kept a0 (Block.onDelayReq b p m t2 t3) = Kept a0 b := Kept.cong (Block.onDelayReq_kept b p m t2 t3)

theorem Block.trySeam_kept (b : Block) (p : Nat) : Kept b (Block.trySeam b p) := by
  unfold Block.trySeam
  dsimp only; (repeat' split) <;> simp

@[simp] theorem Block.trySeam_kept_iff (a0 b : Block) (p : Nat) :
    Kept a0 (Block.trySeam b p) = Kept a0 b := Kept.cong (Block.trySeam_kept b p)

theorem Block.seamAll_kept (b : Block) : Kept b (Block.seamAll b) := by
  unfold Block.seamAll
  simp

@[simp] theorem Block.seamAll_kept_iff (a0 b : Block) :
    Kept a0 (Block.seamAll b) = Kept a0 b := Kept.cong (Block.seamAll_kept b)

theorem Block.seamResult_kept (b : Block) (p : Nat) : Kept b (Block.seamResult b p) := by
  unfold Block.seamResult
  dsimp only; (repeat' split) <;> simp

@[simp] theorem Block.seamResult_kept_iff (a0 b : Block) (p : Nat) :
    Kept a0 (Block.seamResult b p) = Kept a0 b := Kept.cong (Block.seamResult_kept b p)

theorem Block.onDelayResp_kept (b : Block) (p : Nat) (m : PilotMsg) (t4 : Nat) : Kept b (b.onDelayResp p m t4) := by
  have h : ∀ (z : Block) (f : LaneSt → LaneSt) (w1 w2 hi lo v : Nat) (x : Word), Kept b z →
      Kept b ((((z.setLane p f).poke w1 x).setRf w2 hi lo v).seamResult p) := by intros; simpa
  have h' : ∀ (z : Block) (f : LaneSt → LaneSt), Kept b z → Kept b (z.setLane p f) := by intros; simpa
  unfold Block.onDelayResp
  dsimp only
  split
  · simp
  · refine Kept.ite (by simp) (Kept.ite ?_ ?_)
    · exact h' _ _ (by simp)
    · exact h _ _ _ _ _ _ _ _ (by simp)

@[simp] theorem Block.onDelayResp_kept_iff (a0 b : Block) (p : Nat) (m : PilotMsg) (t4 : Nat) :
    Kept a0 (Block.onDelayResp b p m t4) = Kept a0 b := Kept.cong (Block.onDelayResp_kept b p m t4)

theorem Block.onSeam_kept (b : Block) (p : Nat) (m : PilotMsg) : Kept b (Block.onSeam b p m) := by
  unfold Block.onSeam
  simp

@[simp] theorem Block.onSeam_kept_iff (a0 b : Block) (p : Nat) (m : PilotMsg) :
    Kept a0 (Block.onSeam b p m) = Kept a0 b := Kept.cong (Block.onSeam_kept b p m)

theorem Block.onSeamResult_kept (b : Block) (p : Nat) (m : PilotMsg) : Kept b (Block.onSeamResult b p m) := by
  unfold Block.onSeamResult
  simp

@[simp] theorem Block.onSeamResult_kept_iff (a0 b : Block) (p : Nat) (m : PilotMsg) :
    Kept a0 (Block.onSeamResult b p m) = Kept a0 b := Kept.cong (Block.onSeamResult_kept b p m)

theorem Block.noSeam_kept (b : Block) (p : Nat) : Kept b (Block.noSeam b p) := by
  unfold Block.noSeam
  simp

@[simp] theorem Block.noSeam_kept_iff (a0 b : Block) (p : Nat) :
    Kept a0 (Block.noSeam b p) = Kept a0 b := Kept.cong (Block.noSeam_kept b p)

theorem Block.retrain_kept (b : Block) (p : Nat) : Kept b (Block.retrain b p) := by
  unfold Block.retrain
  simp

@[simp] theorem Block.retrain_kept_iff (a0 b : Block) (p : Nat) :
    Kept a0 (Block.retrain b p) = Kept a0 b := Kept.cong (Block.retrain_kept b p)

theorem Block.autoRetrain_kept (b : Block) (p : Nat) : Kept b (Block.autoRetrain b p) := by
  unfold Block.autoRetrain
  simp

@[simp] theorem Block.autoRetrain_kept_iff (a0 b : Block) (p : Nat) :
    Kept a0 (Block.autoRetrain b p) = Kept a0 b := Kept.cong (Block.autoRetrain_kept b p)

theorem Block.release_kept (b : Block) (p : Nat) : Kept b (Block.release b p) := by
  unfold Block.release
  simp

@[simp] theorem Block.release_kept_iff (a0 b : Block) (p : Nat) :
    Kept a0 (Block.release b p) = Kept a0 b := Kept.cong (Block.release_kept b p)

theorem Block.bitslip_kept (b : Block) (p : Nat) (v : Word) : Kept b (Block.bitslip b p v) := by
  unfold Block.bitslip
  simp

@[simp] theorem Block.bitslip_kept_iff (a0 b : Block) (p : Nat) (v : Word) :
    Kept a0 (Block.bitslip b p v) = Kept a0 b := Kept.cong (Block.bitslip_kept b p v)

theorem Block.bitslipDone_kept (b : Block) (p : Nat) : Kept b (Block.bitslipDone b p) := by
  unfold Block.bitslipDone
  (repeat' split) <;> simp

@[simp] theorem Block.bitslipDone_kept_iff (a0 b : Block) (p : Nat) :
    Kept a0 (Block.bitslipDone b p) = Kept a0 b := Kept.cong (Block.bitslipDone_kept b p)

theorem Block.powerUpDone_kept (b : Block) (p : Nat) : Kept b (Block.powerUpDone b p) := by
  unfold Block.powerUpDone
  simp

@[simp] theorem Block.powerUpDone_kept_iff (a0 b : Block) (p : Nat) :
    Kept a0 (Block.powerUpDone b p) = Kept a0 b := Kept.cong (Block.powerUpDone_kept b p)

end Sys2Proof.Machine
end

