-- ==== Sys2Proof/Laws/KeptTime.lean ====
section
/-!
SUPPORT. Fabric time and telemetry: each operation keeps the variant code and the key root.
-/

namespace Sys2Proof.Machine

theorem Block.snapPiece_kept (b : Block) : Kept b (Block.snapPiece b) := by
  unfold Block.snapPiece
  (repeat' split) <;> simp

@[simp] theorem Block.snapPiece_kept_iff (a0 b : Block) :
    Kept a0 (Block.snapPiece b) = Kept a0 b := Kept.cong (Block.snapPiece_kept b)

theorem Block.snapWritten_kept (b : Block) : Kept b (Block.snapWritten b) := by
  unfold Block.snapWritten
  (repeat' split) <;> simp

@[simp] theorem Block.snapWritten_kept_iff (a0 b : Block) :
    Kept a0 (Block.snapWritten b) = Kept a0 b := Kept.cong (Block.snapWritten_kept b)

theorem Block.settleTime_kept (b : Block) : Kept b (Block.settleTime b) := by
  unfold Block.settleTime
  simp

@[simp] theorem Block.settleTime_kept_iff (a0 b : Block) :
    Kept a0 (Block.settleTime b) = Kept a0 b := Kept.cong (Block.settleTime_kept b)

theorem Block.telemNote_kept (b : Block) : Kept b (Block.telemNote b) := by
  unfold Block.telemNote
  simp

@[simp] theorem Block.telemNote_kept_iff (a0 b : Block) :
    Kept a0 (Block.telemNote b) = Kept a0 b := Kept.cong (Block.telemNote_kept b)

theorem Block.telemetry_kept (b : Block) : Kept b (Block.telemetry b) := by
  unfold Block.telemetry
  simp

@[simp] theorem Block.telemetry_kept_iff (a0 b : Block) :
    Kept a0 (Block.telemetry b) = Kept a0 b := Kept.cong (Block.telemetry_kept b)

theorem Block.counterClear_kept (b : Block) : Kept b (Block.counterClear b) := by
  unfold Block.counterClear
  simp

@[simp] theorem Block.counterClear_kept_iff (a0 b : Block) :
    Kept a0 (Block.counterClear b) = Kept a0 b := Kept.cong (Block.counterClear_kept b)

theorem Block.setTs_kept (b : Block) (hi : Nat) (lo : Nat) (x : Nat) : Kept b (Block.setTs b hi lo x) := by
  unfold Block.setTs
  simp

@[simp] theorem Block.setTs_kept_iff (a0 b : Block) (hi : Nat) (lo : Nat) (x : Nat) :
    Kept a0 (Block.setTs b hi lo x) = Kept a0 b := Kept.cong (Block.setTs_kept b hi lo x)

theorem Block.timeEvent_kept (b : Block) (kind : Nat) (corr : Int) : Kept b (Block.timeEvent b kind corr) := by
  unfold Block.timeEvent
  simp

@[simp] theorem Block.timeEvent_kept_iff (a0 b : Block) (kind : Nat) (corr : Int) :
    Kept a0 (Block.timeEvent b kind corr) = Kept a0 b := Kept.cong (Block.timeEvent_kept b kind corr)

theorem Block.seeHold_kept (b : Block) : Kept b (Block.seeHold b) := by
  unfold Block.seeHold
  simp

@[simp] theorem Block.seeHold_kept_iff (a0 b : Block) :
    Kept a0 (Block.seeHold b) = Kept a0 b := Kept.cong (Block.seeHold_kept b)

theorem Block.takeMaster_kept (b : Block) : Kept b (Block.takeMaster b) := by
  unfold Block.takeMaster
  simp

@[simp] theorem Block.takeMaster_kept_iff (a0 b : Block) :
    Kept a0 (Block.takeMaster b) = Kept a0 b := Kept.cong (Block.takeMaster_kept b)

theorem Block.takeParent_kept (b : Block) (p : Nat) : Kept b (Block.takeParent b p) := by
  unfold Block.takeParent
  simp

@[simp] theorem Block.takeParent_kept_iff (a0 b : Block) (p : Nat) :
    Kept a0 (Block.takeParent b p) = Kept a0 b := Kept.cong (Block.takeParent_kept b p)

theorem Block.noParent_kept (b : Block) : Kept b (Block.noParent b) := by
  unfold Block.noParent
  (repeat' split) <;> simp

@[simp] theorem Block.noParent_kept_iff (a0 b : Block) :
    Kept a0 (Block.noParent b) = Kept a0 b := Kept.cong (Block.noParent_kept b)

theorem Block.masterCheck_kept (b : Block) : Kept b (Block.masterCheck b) := by
  unfold Block.masterCheck
  simp

@[simp] theorem Block.masterCheck_kept_iff (a0 b : Block) :
    Kept a0 (Block.masterCheck b) = Kept a0 b := Kept.cong (Block.masterCheck_kept b)

theorem Block.sealTime_kept (b : Block) : Kept b (Block.sealTime b) := by
  unfold Block.sealTime
  simp

@[simp] theorem Block.sealTime_kept_iff (a0 b : Block) :
    Kept a0 (Block.sealTime b) = Kept a0 b := Kept.cong (Block.sealTime_kept b)

theorem Block.masterWaitEnd_kept (b : Block) : Kept b (Block.masterWaitEnd b) := by
  unfold Block.masterWaitEnd
  simp

@[simp] theorem Block.masterWaitEnd_kept_iff (a0 b : Block) :
    Kept a0 (Block.masterWaitEnd b) = Kept a0 b := Kept.cong (Block.masterWaitEnd_kept b)

theorem Block.parentLoss_kept (b : Block) (missed : Bool) : Kept b (Block.parentLoss b missed) := by
  unfold Block.parentLoss
  simp

@[simp] theorem Block.parentLoss_kept_iff (a0 b : Block) (missed : Bool) :
    Kept a0 (Block.parentLoss b missed) = Kept a0 b := Kept.cong (Block.parentLoss_kept b missed)

theorem Block.correct_kept (b : Block) (diff : Int) : Kept b (Block.correct b diff) := by
  unfold Block.correct
  simp

@[simp] theorem Block.correct_kept_iff (a0 b : Block) (diff : Int) :
    Kept a0 (Block.correct b diff) = Kept a0 b := Kept.cong (Block.correct_kept b diff)

theorem Block.learnPeriod_kept (b : Block) (edge : Nat) (k : Nat) : Kept b (Block.learnPeriod b edge k) := by
  unfold Block.learnPeriod
  (repeat' split) <;> simp

@[simp] theorem Block.learnPeriod_kept_iff (a0 b : Block) (edge : Nat) (k : Nat) :
    Kept a0 (Block.learnPeriod b edge k) = Kept a0 b := Kept.cong (Block.learnPeriod_kept b edge k)

theorem Block.onTick_kept (b : Block) (p : Nat) (m : PilotMsg) (now : Nat) : Kept b (Block.onTick b p m now) := by
  unfold Block.onTick
  simp

@[simp] theorem Block.onTick_kept_iff (a0 b : Block) (p : Nat) (m : PilotMsg) (now : Nat) :
    Kept a0 (Block.onTick b p m now) = Kept a0 b := Kept.cong (Block.onTick_kept b p m now)

theorem Block.onTime_kept (b : Block) (p : Nat) (m : PilotMsg) (now : Nat) : Kept b (Block.onTime b p m now) := by
  unfold Block.onTime
  dsimp only; (repeat' split) <;> simp

@[simp] theorem Block.onTime_kept_iff (a0 b : Block) (p : Nat) (m : PilotMsg) (now : Nat) :
    Kept a0 (Block.onTime b p m now) = Kept a0 b := Kept.cong (Block.onTime_kept b p m now)

theorem Block.powerRule_kept (b : Block) (power : Nat) : Kept b (Block.powerRule b power) := by
  unfold Block.powerRule
  extract_lets z0 z1 z2 z3
  have hz : Kept b (b.setRf wPower 63 48 z1) := Block.setRf_kept _ _ _ _ _
  clear_value z1 z2
  split
  exact ⟨by with_reducible rfl, hz.2⟩

@[simp] theorem Block.powerRule_kept_iff (a0 b : Block) (power : Nat) :
    Kept a0 (Block.powerRule b power) = Kept a0 b := Kept.cong (Block.powerRule_kept b power)

theorem Block.thermtrip_kept (b : Block) : Kept b (Block.thermtrip b) := by
  have h : Kept b (b.setRf wThermal 30 30 1) := by simp
  unfold Block.thermtrip
  revert h
  generalize b.setRf wThermal 30 30 1 = c
  intro h
  exact ⟨Eq.refl _, h.2⟩

@[simp] theorem Block.thermtrip_kept_iff (a0 b : Block) :
    Kept a0 (Block.thermtrip b) = Kept a0 b := Kept.cong (Block.thermtrip_kept b)

theorem Block.clockRule_kept (b : Block) (temp : Nat) (power : Nat) : Kept b (Block.clockRule b temp power) := by
  unfold Block.clockRule
  simp

@[simp] theorem Block.clockRule_kept_iff (a0 b : Block) (temp : Nat) (power : Nat) :
    Kept a0 (Block.clockRule b temp power) = Kept a0 b := Kept.cong (Block.clockRule_kept b temp power)

theorem Block.starve_kept (b : Block) : Kept b (Block.starve b) := by
  unfold Block.starve
  simp

@[simp] theorem Block.starve_kept_iff (a0 b : Block) :
    Kept a0 (Block.starve b) = Kept a0 b := Kept.cong (Block.starve_kept b)

theorem Block.latencyMeans_kept (b : Block) : Kept b (Block.latencyMeans b) := by
  unfold Block.latencyMeans
  simp

@[simp] theorem Block.latencyMeans_kept_iff (a0 b : Block) :
    Kept a0 (Block.latencyMeans b) = Kept a0 b := Kept.cong (Block.latencyMeans_kept b)

theorem Block.sendTick_kept (b : Block) (offsets : List Nat) : Kept b (Block.sendTick b offsets) := by
  unfold Block.sendTick
  simp

@[simp] theorem Block.sendTick_kept_iff (a0 b : Block) (offsets : List Nat) :
    Kept a0 (Block.sendTick b offsets) = Kept a0 b := Kept.cong (Block.sendTick_kept b offsets)

theorem Block.edgeCounts_kept (b : Block) : Kept b (Block.edgeCounts b) := by
  unfold Block.edgeCounts
  simp

@[simp] theorem Block.edgeCounts_kept_iff (a0 b : Block) :
    Kept a0 (Block.edgeCounts b) = Kept a0 b := Kept.cong (Block.edgeCounts_kept b)

theorem Block.moveEdge_kept (b : Block) (now : Nat) : Kept b (Block.moveEdge b now) := by
  unfold Block.moveEdge
  dsimp only; (repeat' split) <;> simp

@[simp] theorem Block.moveEdge_kept_iff (a0 b : Block) (now : Nat) :
    Kept a0 (Block.moveEdge b now) = Kept a0 b := Kept.cong (Block.moveEdge_kept b now)

theorem Block.tickEdge_kept (b : Block) (now : Nat) (temp : Nat) (power : Nat) (offsets : List Nat) :
    Kept b (Block.tickEdge b now temp power offsets) := by
  unfold Block.tickEdge
  simp

@[simp] theorem Block.tickEdge_kept_iff (a0 b : Block) (now : Nat) (temp : Nat) (power : Nat) (offsets : List Nat) :
    Kept a0 (Block.tickEdge b now temp power offsets) = Kept a0 b := Kept.cong (Block.tickEdge_kept b now temp power offsets)

end Sys2Proof.Machine
end

