-- ==== Sys2Proof/Laws/KeptHost.lean ====
section
/-!
SUPPORT. What a host answer does, and dumps: each operation keeps the variant code and the key root.
-/

namespace Sys2Proof.Machine

theorem Block.setTxn_kept (b : Block) (ch : Nat) (tag : Nat) (f : Txn → Txn) : Kept b (Block.setTxn b ch tag f) := by
  unfold Block.setTxn
  simp

@[simp] theorem Block.setTxn_kept_iff (a0 b : Block) (ch : Nat) (tag : Nat) (f : Txn → Txn) :
    Kept a0 (Block.setTxn b ch tag f) = Kept a0 b := Kept.cong (Block.setTxn_kept b ch tag f)

theorem Block.dropTxn_kept (b : Block) (ch : Nat) (tag : Nat) : Kept b (Block.dropTxn b ch tag) := by
  unfold Block.dropTxn
  simp

@[simp] theorem Block.dropTxn_kept_iff (a0 b : Block) (ch : Nat) (tag : Nat) :
    Kept a0 (Block.dropTxn b ch tag) = Kept a0 b := Kept.cong (Block.dropTxn_kept b ch tag)

theorem Block.fwPart_kept (b : Block) (body : Bool) (data : List Byte) (bad : Bool) : Kept b (Block.fwPart b body data bad) := by
  unfold Block.fwPart
  (repeat' split) <;> simp

@[simp] theorem Block.fwPart_kept_iff (a0 b : Block) (body : Bool) (data : List Byte) (bad : Bool) :
    Kept a0 (Block.fwPart b body data bad) = Kept a0 b := Kept.cong (Block.fwPart_kept b body data bad)

theorem Block.ucPart_kept (b : Block) (e : Nat) (body : Bool) (data : List Byte) (bad : Bool) :
    Kept b (Block.ucPart b e body data bad) := by
  unfold Block.ucPart
  (repeat' split) <;> simp

@[simp] theorem Block.ucPart_kept_iff (a0 b : Block) (e : Nat) (body : Bool) (data : List Byte) (bad : Bool) :
    Kept a0 (Block.ucPart b e body data bad) = Kept a0 b := Kept.cong (Block.ucPart_kept b e body data bad)

theorem Block.landedLocal_kept (b : Block) (cmd : Nat) (ctr : Nat) (n : Nat) (k : Option Nat) (bad : Bool) :
    Kept b (Block.landedLocal b cmd ctr n k bad) := by
  unfold Block.landedLocal
  (repeat' split) <;> simp

@[simp] theorem Block.landedLocal_kept_iff (a0 b : Block) (cmd : Nat) (ctr : Nat) (n : Nat) (k : Option Nat) (bad :
    Bool) :
    Kept a0 (Block.landedLocal b cmd ctr n k bad) = Kept a0 b := Kept.cong (Block.landedLocal_kept b cmd ctr n k bad)

theorem Block.mirrorAgain_kept (b : Block) (n : Nat) (id : Nat) : Kept b (Block.mirrorAgain b n id) := by
  unfold Block.mirrorAgain
  simp

@[simp] theorem Block.mirrorAgain_kept_iff (a0 b : Block) (n : Nat) (id : Nat) :
    Kept a0 (Block.mirrorAgain b n id) = Kept a0 b := Kept.cong (Block.mirrorAgain_kept b n id)

theorem Block.finishJob_kept (b : Block) (j : Job) : Kept b (Block.finishJob b j) := by
  unfold Block.finishJob
  (repeat' split) <;> simp

@[simp] theorem Block.finishJob_kept_iff (a0 b : Block) (j : Job) :
    Kept a0 (Block.finishJob b j) = Kept a0 b := Kept.cong (Block.finishJob_kept b j)

theorem Block.partDone_kept (b : Block) (t : Txn) (data : List Byte) (bad : Bool) : Kept b (Block.partDone b t data bad) := by
  unfold Block.partDone
  (repeat' split) <;> simp

@[simp] theorem Block.partDone_kept_iff (a0 b : Block) (t : Txn) (data : List Byte) (bad : Bool) :
    Kept a0 (Block.partDone b t data bad) = Kept a0 b := Kept.cong (Block.partDone_kept b t data bad)

theorem Block.drainStep_kept (b : Block) : Kept b (Block.drainStep b) := by
  unfold Block.drainStep
  simp

@[simp] theorem Block.drainStep_kept_iff (a0 b : Block) :
    Kept a0 (Block.drainStep b) = Kept a0 b := Kept.cong (Block.drainStep_kept b)

theorem Block.afterHost_kept (b : Block) : Kept b (Block.afterHost b) := by
  unfold Block.afterHost
  simp

@[simp] theorem Block.afterHost_kept_iff (a0 b : Block) :
    Kept a0 (Block.afterHost b) = Kept a0 b := Kept.cong (Block.afterHost_kept b)

theorem Block.checkBeat_kept (b : Block) (ch : Nat) (tag : Nat) (beat : Nat) (lo : Nat) (n : Nat) (words : List HostWord) :
    Kept b (Block.checkBeat b ch tag beat lo n words).1 := by
  unfold Block.checkBeat
  simp

@[simp] theorem Block.checkBeat_kept_iff (a0 b : Block) (ch : Nat) (tag : Nat) (beat : Nat) (lo : Nat) (n : Nat)
    (words : List HostWord) :
    Kept a0 (Block.checkBeat b ch tag beat lo n words).1 = Kept a0 b := Kept.cong (Block.checkBeat_kept b ch tag beat lo n words)

theorem Block.checkHeader_kept (b : Block) (ch : Nat) (hdr : Darn) : Kept b (Block.checkHeader b ch hdr).1 := by
  unfold Block.checkHeader
  (repeat' split) <;> simp

@[simp] theorem Block.checkHeader_kept_iff (a0 b : Block) (ch : Nat) (hdr : Darn) :
    Kept a0 (Block.checkHeader b ch hdr).1 = Kept a0 b := Kept.cong (Block.checkHeader_kept b ch hdr)

theorem Block.lateResponse_kept (b : Block) (ch : Nat) (tag : Nat) (whole : Bool) :
    Kept b (Block.lateResponse b ch tag whole) := by
  unfold Block.lateResponse
  simp

@[simp] theorem Block.lateResponse_kept_iff (a0 b : Block) (ch : Nat) (tag : Nat) (whole : Bool) :
    Kept a0 (Block.lateResponse b ch tag whole) = Kept a0 b := Kept.cong (Block.lateResponse_kept b ch tag whole)

theorem Block.latency_kept (b : Block) (ch : Nat) (cycles : Nat) : Kept b (Block.latency b ch cycles) := by
  unfold Block.latency
  simp

@[simp] theorem Block.latency_kept_iff (a0 b : Block) (ch : Nat) (cycles : Nat) :
    Kept a0 (Block.latency b ch cycles) = Kept a0 b := Kept.cong (Block.latency_kept b ch cycles)

theorem Block.rdata_kept (b : Block) (ch : Nat) (status : Nat) (tag : Nat) (beat : Nat) (hdr : Darn) (words : List HostWord)
    (cycles : Nat) :
    Kept b (Block.rdata b ch status tag beat hdr words cycles) := by
  unfold Block.rdata
  dsimp only; (repeat' split) <;> simp

@[simp] theorem Block.rdata_kept_iff (a0 b : Block) (ch : Nat) (status : Nat) (tag : Nat) (beat : Nat) (hdr : Darn)
    (words : List HostWord) (cycles : Nat) :
    Kept a0 (Block.rdata b ch status tag beat hdr words cycles) = Kept a0 b :=
  Kept.cong (Block.rdata_kept b ch status tag beat hdr words cycles)

theorem Block.unlocked_kept (b : Block) (t : Txn) : Kept b (Block.unlocked b t) := by
  unfold Block.unlocked
  simp

@[simp] theorem Block.unlocked_kept_iff (a0 b : Block) (t : Txn) :
    Kept a0 (Block.unlocked b t) = Kept a0 b := Kept.cong (Block.unlocked_kept b t)

theorem Block.wack_kept (b : Block) (ch : Nat) (status : Nat) (tag : Nat) (hdr : Darn) (ctr : Darn) :
    Kept b (Block.wack b ch status tag hdr ctr) := by
  unfold Block.wack
  dsimp only; (repeat' split) <;> simp

@[simp] theorem Block.wack_kept_iff (a0 b : Block) (ch : Nat) (status : Nat) (tag : Nat) (hdr : Darn) (ctr : Darn) :
    Kept a0 (Block.wack b ch status tag hdr ctr) = Kept a0 b := Kept.cong (Block.wack_kept b ch status tag hdr ctr)

theorem Block.adata_kept (b : Block) (ch : Nat) (status : Nat) (tag : Nat) (hdr : Darn) (words : List HostWord) :
    Kept b (Block.adata b ch status tag hdr words) := by
  unfold Block.adata
  dsimp only; (repeat' split) <;> simp

@[simp] theorem Block.adata_kept_iff (a0 b : Block) (ch : Nat) (status : Nat) (tag : Nat) (hdr : Darn) (words : List
    HostWord) :
    Kept a0 (Block.adata b ch status tag hdr words) = Kept a0 b := Kept.cong (Block.adata_kept b ch status tag hdr words)

theorem Block.hostTimeout_kept (b : Block) (ch : Nat) (tag : Nat) : Kept b (Block.hostTimeout b ch tag) := by
  unfold Block.hostTimeout
  (repeat' split) <;> simp

@[simp] theorem Block.hostTimeout_kept_iff (a0 b : Block) (ch : Nat) (tag : Nat) :
    Kept a0 (Block.hostTimeout b ch tag) = Kept a0 b := Kept.cong (Block.hostTimeout_kept b ch tag)

theorem Block.unitDone_kept (b : Block) (e : Nat) (bad : Bool) : Kept b (Block.unitDone b e bad) := by
  unfold Block.unitDone
  (repeat' split) <;> simp

@[simp] theorem Block.unitDone_kept_iff (a0 b : Block) (e : Nat) (bad : Bool) :
    Kept a0 (Block.unitDone b e bad) = Kept a0 b := Kept.cong (Block.unitDone_kept b e bad)

theorem Block.dump_kept (b : Block) (kind : Nat) (cause : Nat) (engine : Nat) (ctx : Nat) :
    Kept b (Block.dump b kind cause engine ctx) := by
  unfold Block.dump
  simp

@[simp] theorem Block.dump_kept_iff (a0 b : Block) (kind : Nat) (cause : Nat) (engine : Nat) (ctx : Nat) :
    Kept a0 (Block.dump b kind cause engine ctx) = Kept a0 b := Kept.cong (Block.dump_kept b kind cause engine ctx)

end Sys2Proof.Machine
end

