-- ==== Sys2Proof/Laws/KeptReset.lean ====
section
/-!
SUPPORT. The reset levels: each operation keeps the variant code and the key root.
-/

namespace Sys2Proof.Machine

theorem Block.showStage_kept (b : Block) (k : Nat) : Kept b (Block.showStage b k) := by
  unfold Block.showStage
  simp

@[simp] theorem Block.showStage_kept_iff (a0 b : Block) (k : Nat) :
    Kept a0 (Block.showStage b k) = Kept a0 b := Kept.cong (Block.showStage_kept b k)

theorem Block.setStage_kept (b : Block) (k : Nat) : Kept b (Block.setStage b k) := by
  unfold Block.setStage
  simp

@[simp] theorem Block.setStage_kept_iff (a0 b : Block) (k : Nat) :
    Kept a0 (Block.setStage b k) = Kept a0 b := Kept.cong (Block.setStage_kept b k)

theorem Block.setPhase_kept (b : Block) (k : Nat) : Kept b (Block.setPhase b k) := by
  unfold Block.setPhase
  simp

@[simp] theorem Block.setPhase_kept_iff (a0 b : Block) (k : Nat) :
    Kept a0 (Block.setPhase b k) = Kept a0 b := Kept.cong (Block.setPhase_kept b k)

theorem Block.resetBegin_kept (b : Block) (level : Nat) (cause : Nat) (engine : Nat) :
    Kept b (Block.resetBegin b level cause engine) := by
  unfold Block.resetBegin
  simp

@[simp] theorem Block.resetBegin_kept_iff (a0 b : Block) (level : Nat) (cause : Nat) (engine : Nat) :
    Kept a0 (Block.resetBegin b level cause engine) = Kept a0 b := Kept.cong (Block.resetBegin_kept b level cause engine)

theorem Block.resetRefused_kept (b : Block) : Kept b (Block.resetRefused b) := by
  unfold Block.resetRefused
  simp

@[simp] theorem Block.resetRefused_kept_iff (a0 b : Block) :
    Kept a0 (Block.resetRefused b) = Kept a0 b := Kept.cong (Block.resetRefused_kept b)

theorem Block.escalated_kept (b : Block) : Kept b (Block.escalated b) := by
  unfold Block.escalated
  simp

@[simp] theorem Block.escalated_kept_iff (a0 b : Block) :
    Kept a0 (Block.escalated b) = Kept a0 b := Kept.cong (Block.escalated_kept b)

theorem Block.markSuspects_kept (b : Block) (e : Nat) : Kept b (Block.markSuspects b e) := by
  unfold Block.markSuspects
  simp

@[simp] theorem Block.markSuspects_kept_iff (a0 b : Block) (e : Nat) :
    Kept a0 (Block.markSuspects b e) = Kept a0 b := Kept.cong (Block.markSuspects_kept b e)

theorem Block.fwResult_kept (b : Block) (code : Nat) : Kept b (Block.fwResult b code) := by
  unfold Block.fwResult
  simp

@[simp] theorem Block.fwResult_kept_iff (a0 b : Block) (code : Nat) :
    Kept a0 (Block.fwResult b code) = Kept a0 b := Kept.cong (Block.fwResult_kept b code)

theorem Block.stopUcode_kept (b : Block) (e : Nat) : Kept b (Block.stopUcode b e) := by
  unfold Block.stopUcode
  simp

@[simp] theorem Block.stopUcode_kept_iff (a0 b : Block) (e : Nat) :
    Kept a0 (Block.stopUcode b e) = Kept a0 b := Kept.cong (Block.stopUcode_kept b e)

theorem Block.clearEngine_kept (b : Block) (e : Nat) : Kept b (Block.clearEngine b e) := by
  unfold Block.clearEngine
  simp

@[simp] theorem Block.clearEngine_kept_iff (a0 b : Block) (e : Nat) :
    Kept a0 (Block.clearEngine b e) = Kept a0 b := Kept.cong (Block.clearEngine_kept b e)

theorem Block.clearSequencer_kept (b : Block) : Kept b (Block.clearSequencer b) := by
  unfold Block.clearSequencer
  simp

@[simp] theorem Block.clearSequencer_kept_iff (a0 b : Block) :
    Kept a0 (Block.clearSequencer b) = Kept a0 b := Kept.cong (Block.clearSequencer_kept b)

theorem Block.engineReset_kept (b : Block) (e : Nat) (cause : Nat) : Kept b (Block.engineReset b e cause) := by
  unfold Block.engineReset
  simp

@[simp] theorem Block.engineReset_kept_iff (a0 b : Block) (e : Nat) (cause : Nat) :
    Kept a0 (Block.engineReset b e cause) = Kept a0 b := Kept.cong (Block.engineReset_kept b e cause)

theorem Block.requestEngine_kept (b : Block) (e : Nat) (cause : Nat) : Kept b (Block.requestEngine b e cause) := by
  unfold Block.requestEngine
  simp

@[simp] theorem Block.requestEngine_kept_iff (a0 b : Block) (e : Nat) (cause : Nat) :
    Kept a0 (Block.requestEngine b e cause) = Kept a0 b := Kept.cong (Block.requestEngine_kept b e cause)

theorem Block.engineResetDone_kept (b : Block) (e : Nat) (ok : Bool) : Kept b (Block.engineResetDone b e ok) := by
  unfold Block.engineResetDone
  simp

@[simp] theorem Block.engineResetDone_kept_iff (a0 b : Block) (e : Nat) (ok : Bool) :
    Kept a0 (Block.engineResetDone b e ok) = Kept a0 b := Kept.cong (Block.engineResetDone_kept b e ok)

theorem Block.engineHung_kept (b : Block) (e : Nat) (now : Nat) : Kept b (Block.engineHung b e now) := by
  unfold Block.engineHung
  simp

@[simp] theorem Block.engineHung_kept_iff (a0 b : Block) (e : Nat) (now : Nat) :
    Kept a0 (Block.engineHung b e now) = Kept a0 b := Kept.cong (Block.engineHung_kept b e now)

theorem Block.rinseUnits_kept (b : Block) (c : Nat) : Kept b (Block.rinseUnits b c) := by
  unfold Block.rinseUnits
  refine (foldl_kept _ _ (fun z x => ?_) _).cons (by simp)
  (repeat' split) <;> simp

@[simp] theorem Block.rinseUnits_kept_iff (a0 b : Block) (c : Nat) :
    Kept a0 (Block.rinseUnits b c) = Kept a0 b := Kept.cong (Block.rinseUnits_kept b c)

theorem Block.rinseWork_kept (b : Block) (c : Nat) : Kept b (Block.rinseWork b c) := by
  unfold Block.rinseWork
  simp

@[simp] theorem Block.rinseWork_kept_iff (a0 b : Block) (c : Nat) :
    Kept a0 (Block.rinseWork b c) = Kept a0 b := Kept.cong (Block.rinseWork_kept b c)

theorem Block.rinseTables_kept (b : Block) (c : Nat) : Kept b (Block.rinseTables b c) := by
  unfold Block.rinseTables
  simp

@[simp] theorem Block.rinseTables_kept_iff (a0 b : Block) (c : Nat) :
    Kept a0 (Block.rinseTables b c) = Kept a0 b := Kept.cong (Block.rinseTables_kept b c)

theorem Block.rinseStart_kept (b : Block) : Kept b (Block.rinseStart b) := by
  unfold Block.rinseStart
  (repeat' split) <;> simp

@[simp] theorem Block.rinseStart_kept_iff (a0 b : Block) :
    Kept a0 (Block.rinseStart b) = Kept a0 b := Kept.cong (Block.rinseStart_kept b)

theorem Block.rinseComplete_kept (b : Block) : Kept b (Block.rinseComplete b) := by
  unfold Block.rinseComplete
  (repeat' split) <;> simp

@[simp] theorem Block.rinseComplete_kept_iff (a0 b : Block) :
    Kept a0 (Block.rinseComplete b) = Kept a0 b := Kept.cong (Block.rinseComplete_kept b)

theorem Block.abandonRinse_kept (b : Block) : Kept b (Block.abandonRinse b) := by
  unfold Block.abandonRinse
  dsimp only; (repeat' split) <;> simp

@[simp] theorem Block.abandonRinse_kept_iff (a0 b : Block) :
    Kept a0 (Block.abandonRinse b) = Kept a0 b := Kept.cong (Block.abandonRinse_kept b)

theorem Block.dropJobs_kept (b : Block) (lives : JobKind → Bool) : Kept b (Block.dropJobs b lives) := by
  unfold Block.dropJobs
  simp

@[simp] theorem Block.dropJobs_kept_iff (a0 b : Block) (lives : JobKind → Bool) :
    Kept a0 (Block.dropJobs b lives) = Kept a0 b := Kept.cong (Block.dropJobs_kept b lives)

theorem Block.absorbInbox_kept (b : Block) : Kept b (Block.absorbInbox b) := by
  unfold Block.absorbInbox
  simp

@[simp] theorem Block.absorbInbox_kept_iff (a0 b : Block) :
    Kept a0 (Block.absorbInbox b) = Kept a0 b := Kept.cong (Block.absorbInbox_kept b)

theorem Block.stopCompute_kept (b : Block) : Kept b (Block.stopCompute b) := by
  unfold Block.stopCompute
  extract_lets z r y i x f o w
  have h1 : Kept b z := by simp [z]
  have h2 : Kept b y := by
    clear_value z
    simp only [y]; rw [Block.dropJobs_kept_iff, Block.withdraw_kept_iff]; exact Kept.trans h1 ⟨Eq.refl _, Eq.refl _⟩
  have h3 : Kept b x := by
    clear_value z r y
    simp only [x]
    rw [Block.tracing_kept_iff]
    · exact h2
    · intro a; exact ⟨Eq.refl _, Eq.refl _⟩
  clear_value z r y i x f o
  have h4 : Kept b w := Kept.trans h3 ⟨Eq.refl _, Eq.refl _⟩
  clear_value w
  simp [h4]

@[simp] theorem Block.stopCompute_kept_iff (a0 b : Block) :
    Kept a0 (Block.stopCompute b) = Kept a0 b := Kept.cong (Block.stopCompute_kept b)

theorem Kept.early {b x : Block} (e : Option Nat) (h : Kept b x) :
    Kept b (({ x with boot := { x.boot with early := e } } : Block).showStage 8) := by
  rw [Block.showStage_kept_iff]; exact Kept.trans h ⟨Eq.refl _, Eq.refl _⟩

theorem Block.computeReset_kept (b : Block) (cause : Nat) : Kept b (Block.computeReset b cause) := by
  have h1 : Kept b ((((b.resetBegin 3 cause 0).setPhase 2).dump 3 cause 0 0).stopCompute.poke wFeatAgreed 1) := by simp
  unfold Block.computeReset
  revert h1
  dsimp only
  generalize (((b.resetBegin 3 cause 0).setPhase 2).dump 3 cause 0 0).stopCompute.poke wFeatAgreed 1 = x
  intro h1
  rw [Block.covers_kept_iff, Block.hamperCheck_kept_iff]
  split
  · exact h1
  · exact Kept.early _ h1

@[simp] theorem Block.computeReset_kept_iff (a0 b : Block) (cause : Nat) :
    Kept a0 (Block.computeReset b cause) = Kept a0 b := Kept.cong (Block.computeReset_kept b cause)

theorem Block.requestCompute_kept (b : Block) (cause : Nat) : Kept b (Block.requestCompute b cause) := by
  unfold Block.requestCompute
  simp

@[simp] theorem Block.requestCompute_kept_iff (a0 b : Block) (cause : Nat) :
    Kept a0 (Block.requestCompute b cause) = Kept a0 b := Kept.cong (Block.requestCompute_kept b cause)

theorem Block.imageWords_kept (b : Block) : Kept b (Block.imageWords b) := by
  unfold Block.imageWords
  simp

@[simp] theorem Block.imageWords_kept_iff (a0 b : Block) :
    Kept a0 (Block.imageWords b) = Kept a0 b := Kept.cong (Block.imageWords_kept b)

theorem Block.clearPages_kept (b : Block) (rws : Bool) : Kept b (Block.clearPages b rws) := by
  unfold Block.clearPages
  simp

@[simp] theorem Block.clearPages_kept_iff (a0 b : Block) (rws : Bool) :
    Kept a0 (Block.clearPages b rws) = Kept a0 b := Kept.cong (Block.clearPages_kept b rws)

theorem Block.clearCompute_kept (b : Block) : Kept b (Block.clearCompute b) := by
  unfold Block.clearCompute
  rw [Block.tracing_kept_iff]
  · exact Kept.rfl
  · intro a
    extract_lets z s g
    have h : Kept a z := by simp [z]
    clear_value z s g
    exact Kept.trans h ⟨Eq.refl _, Eq.refl _⟩

@[simp] theorem Block.clearCompute_kept_iff (a0 b : Block) :
    Kept a0 (Block.clearCompute b) = Kept a0 b := Kept.cong (Block.clearCompute_kept b)

theorem Block.unlockAll_kept (b : Block) : Kept b (Block.unlockAll b) := by
  unfold Block.unlockAll
  simp

@[simp] theorem Block.unlockAll_kept_iff (a0 b : Block) :
    Kept a0 (Block.unlockAll b) = Kept a0 b := Kept.cong (Block.unlockAll_kept b)

theorem Block.restartCompute_kept (b : Block) : Kept b (Block.restartCompute b) := by
  unfold Block.restartCompute
  simp

@[simp] theorem Block.restartCompute_kept_iff (a0 b : Block) :
    Kept a0 (Block.restartCompute b) = Kept a0 b := Kept.cong (Block.restartCompute_kept b)

theorem Block.computeDrained_kept (b : Block) : Kept b (Block.computeDrained b) := by
  unfold Block.computeDrained
  simp

@[simp] theorem Block.computeDrained_kept_iff (a0 b : Block) :
    Kept a0 (Block.computeDrained b) = Kept a0 b := Kept.cong (Block.computeDrained_kept b)

theorem Block.releaseReset_kept (b : Block) : Kept b (Block.releaseReset b) := by
  unfold Block.releaseReset
  simp

@[simp] theorem Block.releaseReset_kept_iff (a0 b : Block) :
    Kept a0 (Block.releaseReset b) = Kept a0 b := Kept.cong (Block.releaseReset_kept b)

theorem Block.clearBlockPages_kept (b : Block) : Kept b (Block.clearBlockPages b) := by
  unfold Block.clearBlockPages
  simp

@[simp] theorem Block.clearBlockPages_kept_iff (a0 b : Block) :
    Kept a0 (Block.clearBlockPages b) = Kept a0 b := Kept.cong (Block.clearBlockPages_kept b)

theorem Block.clearBlock_kept (b : Block) : Kept b (Block.clearBlock b) := by
  unfold Block.clearBlock
  rw [Block.tracing_kept_iff]
  · exact Kept.rfl
  · intro a
    extract_lets z t
    have h : Kept a z := by simp [z]
    clear_value z t
    exact Kept.trans h ⟨Eq.refl _, Eq.refl _⟩

@[simp] theorem Block.clearBlock_kept_iff (a0 b : Block) :
    Kept a0 (Block.clearBlock b) = Kept a0 b := Kept.cong (Block.clearBlock_kept b)

theorem Block.dropLinks_kept (b : Block) : Kept b (Block.dropLinks b) := by
  unfold Block.dropLinks
  simp

@[simp] theorem Block.dropLinks_kept_iff (a0 b : Block) :
    Kept a0 (Block.dropLinks b) = Kept a0 b := Kept.cong (Block.dropLinks_kept b)

theorem Kept.started {b x : Block} (h : Kept b x) :
    Kept b (({ x with boot := { x.boot with early := none } } : Block).showStage 2) := by
  rw [Block.showStage_kept_iff]; exact Kept.trans h ⟨Eq.refl _, Eq.refl _⟩

theorem Kept.portsAs {b x : Block} (l : List PortSt) (h : Kept b x) : Kept b ({ x with ports := l } : Block) :=
  Kept.trans h ⟨Eq.refl _, Eq.refl _⟩

theorem Block.blockReset_kept (b : Block) (cause : Nat) : Kept b (Block.blockReset b cause) := by
  have h1 : Kept b (((((b.resetBegin 4 cause 0).setPhase 6).dump 4 cause 0 0).stopCompute.unlockAll).dropLinks.clearBlock) :=
      by simp
  unfold Block.blockReset
  revert h1
  dsimp only
  generalize ((((b.resetBegin 4 cause 0).setPhase 6).dump 4 cause 0 0).stopCompute.unlockAll).dropLinks.clearBlock = x
  intro h1
  rw [foldl_kept_iff, Block.hostPump_kept_iff]
  · split
    · exact Kept.portsAs _ h1
    · exact Kept.started h1
  · intro z p; simp

@[simp] theorem Block.blockReset_kept_iff (a0 b : Block) (cause : Nat) :
    Kept a0 (Block.blockReset b cause) = Kept a0 b := Kept.cong (Block.blockReset_kept b cause)

theorem Block.requestBlock_kept (b : Block) (cause : Nat) : Kept b (Block.requestBlock b cause) := by
  unfold Block.requestBlock
  simp

@[simp] theorem Block.requestBlock_kept_iff (a0 b : Block) (cause : Nat) :
    Kept a0 (Block.requestBlock b cause) = Kept a0 b := Kept.cong (Block.requestBlock_kept b cause)

theorem Block.rinseDeadline_kept (b : Block) : Kept b (Block.rinseDeadline b) := by
  unfold Block.rinseDeadline
  (repeat' split) <;> simp

@[simp] theorem Block.rinseDeadline_kept_iff (a0 b : Block) :
    Kept a0 (Block.rinseDeadline b) = Kept a0 b := Kept.cong (Block.rinseDeadline_kept b)

theorem Block.engineDeadline_kept (b : Block) : Kept b (Block.engineDeadline b) := by
  unfold Block.engineDeadline
  simp

@[simp] theorem Block.engineDeadline_kept_iff (a0 b : Block) :
    Kept a0 (Block.engineDeadline b) = Kept a0 b := Kept.cong (Block.engineDeadline_kept b)

theorem Block.computeDeadline_kept (b : Block) : Kept b (Block.computeDeadline b) := by
  unfold Block.computeDeadline
  simp

@[simp] theorem Block.computeDeadline_kept_iff (a0 b : Block) :
    Kept a0 (Block.computeDeadline b) = Kept a0 b := Kept.cong (Block.computeDeadline_kept b)

theorem Block.blockDeadline_kept (b : Block) : Kept b (Block.blockDeadline b) := by
  unfold Block.blockDeadline
  simp

@[simp] theorem Block.blockDeadline_kept_iff (a0 b : Block) :
    Kept a0 (Block.blockDeadline b) = Kept a0 b := Kept.cong (Block.blockDeadline_kept b)

theorem Block.controlPoison_kept (b : Block) : Kept b (Block.controlPoison b) := by
  unfold Block.controlPoison
  simp

@[simp] theorem Block.controlPoison_kept_iff (a0 b : Block) :
    Kept a0 (Block.controlPoison b) = Kept a0 b := Kept.cong (Block.controlPoison_kept b)

theorem Block.restartCore_kept (b : Block) : Kept b (Block.restartCore b) := by
  unfold Block.restartCore
  simp

@[simp] theorem Block.restartCore_kept_iff (a0 b : Block) :
    Kept a0 (Block.restartCore b) = Kept a0 b := Kept.cong (Block.restartCore_kept b)

theorem Block.runImage_kept (b : Block) (kind : Nat) (version : Nat) : Kept b (Block.runImage b kind version) := by
  unfold Block.runImage
  simp

@[simp] theorem Block.runImage_kept_iff (a0 b : Block) (kind : Nat) (version : Nat) :
    Kept a0 (Block.runImage b kind version) = Kept a0 b := Kept.cong (Block.runImage_kept b kind version)

theorem Block.watchdogBite_kept (b : Block) (now : Nat) : Kept b (Block.watchdogBite b now) := by
  unfold Block.watchdogBite
  simp

@[simp] theorem Block.watchdogBite_kept_iff (a0 b : Block) (now : Nat) :
    Kept a0 (Block.watchdogBite b now) = Kept a0 b := Kept.cong (Block.watchdogBite_kept b now)

theorem Block.coreRestarted_kept (b : Block) : Kept b (Block.coreRestarted b) := by
  unfold Block.coreRestarted
  simp

@[simp] theorem Block.coreRestarted_kept_iff (a0 b : Block) :
    Kept a0 (Block.coreRestarted b) = Kept a0 b := Kept.cong (Block.coreRestarted_kept b)

end Sys2Proof.Machine
end

