-- ==== Sys2Proof/Laws/KeptStartup.lean ====
section
/-!
SUPPORT. Start-up, images, management and register reads: each operation keeps the variant code and the key root.
-/

namespace Sys2Proof.Machine

@[simp] theorem Block.fresh_fuse (b : Block) : b.fresh.boot.fuseVariant = b.boot.fuseVariant := rfl

theorem Block.loadFuses_kept (b : Block) : Kept b (Block.loadFuses b) := by
  unfold Block.loadFuses
  simp

@[simp] theorem Block.loadFuses_kept_iff (a0 b : Block) :
    Kept a0 (Block.loadFuses b) = Kept a0 b := Kept.cong (Block.loadFuses_kept b)

theorem Block.coldAssert_fuse (b : Block) : b.coldAssert.boot.fuseVariant = b.boot.fuseVariant := rfl

theorem Block.coldRelease_fuse (b : Block) (csel : Bool) (x y prov : Nat) :
    (b.coldRelease csel x y prov).boot.fuseVariant = b.boot.fuseVariant := by
  unfold Block.coldRelease
  split
  · rfl
  · extract_lets f s g
    have h : Kept ({ f with boot := { f.boot with provId := prov % 4096 } } : Block)
      ((g.poke (regAt 0x02 0x050) (word (put (b2n csel) 1 63 + put y 5 5 + put x 5 0))).setRf wStartup 43 43 (b2n csel))
          := by simp [g, s]
    exact h.1

theorem Block.holdDown_kept (b : Block) : Kept b (Block.holdDown b) := by
  unfold Block.holdDown
  simp

@[simp] theorem Block.holdDown_kept_iff (a0 b : Block) :
    Kept a0 (Block.holdDown b) = Kept a0 b := Kept.cong (Block.holdDown_kept b)

theorem Block.stopStart_kept (b : Block) (cause : Nat) : Kept b (Block.stopStart b cause) := by
  unfold Block.stopStart
  simp

@[simp] theorem Block.stopStart_kept_iff (a0 b : Block) (cause : Nat) :
    Kept a0 (Block.stopStart b cause) = Kept a0 b := Kept.cong (Block.stopStart_kept b cause)

theorem Block.fuseLoad_kept (b : Block) (agree : Bool) : Kept b (Block.fuseLoad b agree) := by
  unfold Block.fuseLoad
  simp

@[simp] theorem Block.fuseLoad_kept_iff (a0 b : Block) (agree : Bool) :
    Kept a0 (Block.fuseLoad b agree) = Kept a0 b := Kept.cong (Block.fuseLoad_kept b agree)

theorem Block.trainAll_kept (b : Block) : Kept b (Block.trainAll b) := by
  unfold Block.trainAll
  simp

@[simp] theorem Block.trainAll_kept_iff (a0 b : Block) :
    Kept a0 (Block.trainAll b) = Kept a0 b := Kept.cong (Block.trainAll_kept b)

theorem Block.starchBack_kept (b : Block) : Kept b (Block.starchBack b) := by
  unfold Block.starchBack
  simp

@[simp] theorem Block.starchBack_kept_iff (a0 b : Block) :
    Kept a0 (Block.starchBack b) = Kept a0 b := Kept.cong (Block.starchBack_kept b)

theorem Block.enterStep6_kept (b : Block) : Kept b (Block.enterStep6 b) := by
  unfold Block.enterStep6
  simp

@[simp] theorem Block.enterStep6_kept_iff (a0 b : Block) :
    Kept a0 (Block.enterStep6 b) = Kept a0 b := Kept.cong (Block.enterStep6_kept b)

theorem Block.sramResult_kept (b : Block) (eng : Nat) (port : Nat) (other : Bool) :
    Kept b (Block.sramResult b eng port other) := by
  unfold Block.sramResult
  simp

@[simp] theorem Block.sramResult_kept_iff (a0 b : Block) (eng : Nat) (port : Nat) (other : Bool) :
    Kept a0 (Block.sramResult b eng port other) = Kept a0 b := Kept.cong (Block.sramResult_kept b eng port other)

theorem Block.sramSelfTest_kept (b : Block) (eng : Nat) (port : Nat) (other : Bool) :
    Kept b (Block.sramSelfTest b eng port other) := by
  unfold Block.sramSelfTest
  simp

@[simp] theorem Block.sramSelfTest_kept_iff (a0 b : Block) (eng : Nat) (port : Nat) (other : Bool) :
    Kept a0 (Block.sramSelfTest b eng port other) = Kept a0 b := Kept.cong (Block.sramSelfTest_kept b eng port other)

theorem Block.coordinates_kept (b : Block) : Kept b (Block.coordinates b) := by
  unfold Block.coordinates
  simp

@[simp] theorem Block.coordinates_kept_iff (a0 b : Block) :
    Kept a0 (Block.coordinates b) = Kept a0 b := Kept.cong (Block.coordinates_kept b)

theorem Block.offerChecked_kept (b : Block) (digest : Bool) (sig : Bool) : Kept b (Block.offerChecked b digest sig) := by
  unfold Block.offerChecked
  simp

@[simp] theorem Block.offerChecked_kept_iff (a0 b : Block) (digest : Bool) (sig : Bool) :
    Kept a0 (Block.offerChecked b digest sig) = Kept a0 b := Kept.cong (Block.offerChecked_kept b digest sig)

theorem Block.managementBoot_kept (b : Block) : Kept b (Block.managementBoot b) := by
  unfold Block.managementBoot
  simp

@[simp] theorem Block.managementBoot_kept_iff (a0 b : Block) :
    Kept a0 (Block.managementBoot b) = Kept a0 b := Kept.cong (Block.managementBoot_kept b)

theorem Block.fwLoadDone_kept (b : Block) (digest : Bool) (sig : Bool) : Kept b (Block.fwLoadDone b digest sig) := by
  unfold Block.fwLoadDone
  simp

@[simp] theorem Block.fwLoadDone_kept_iff (a0 b : Block) (digest : Bool) (sig : Bool) :
    Kept a0 (Block.fwLoadDone b digest sig) = Kept a0 b := Kept.cong (Block.fwLoadDone_kept b digest sig)

theorem Block.fwLoad_kept (b : Block) : Kept b (Block.fwLoad b) := by
  unfold Block.fwLoad
  simp

@[simp] theorem Block.fwLoad_kept_iff (a0 b : Block) :
    Kept a0 (Block.fwLoad b) = Kept a0 b := Kept.cong (Block.fwLoad_kept b)

theorem Block.fwActivation_kept (b : Block) (digest : Bool) (sig : Bool) : Kept b (Block.fwActivation b digest sig) := by
  unfold Block.fwActivation
  dsimp only; (repeat' split) <;> simp

@[simp] theorem Block.fwActivation_kept_iff (a0 b : Block) (digest : Bool) (sig : Bool) :
    Kept a0 (Block.fwActivation b digest sig) = Kept a0 b := Kept.cong (Block.fwActivation_kept b digest sig)

theorem Block.bcastPkt_kept (b : Block) (op : Nat) (low : Nat) (data : List Byte) : Kept b (Block.bcastPkt b op low data) := by
  unfold Block.bcastPkt
  simp

@[simp] theorem Block.bcastPkt_kept_iff (a0 b : Block) (op : Nat) (low : Nat) (data : List Byte) :
    Kept a0 (Block.bcastPkt b op low data) = Kept a0 b := Kept.cong (Block.bcastPkt_kept b op low data)

theorem Block.bcastNext_kept (b : Block) : Kept b (Block.bcastNext b) := by
  unfold Block.bcastNext
  (repeat' split) <;> simp

@[simp] theorem Block.bcastNext_kept_iff (a0 b : Block) :
    Kept a0 (Block.bcastNext b) = Kept a0 b := Kept.cong (Block.bcastNext_kept b)

theorem Block.bcastStart_kept (b : Block) : Kept b (Block.bcastStart b) := by
  unfold Block.bcastStart
  simp

@[simp] theorem Block.bcastStart_kept_iff (a0 b : Block) :
    Kept a0 (Block.bcastStart b) = Kept a0 b := Kept.cong (Block.bcastStart_kept b)

theorem Block.fwChunk_kept (b : Block) (p : Packet) : Kept b (Block.fwChunk b p) := by
  unfold Block.fwChunk
  simp

@[simp] theorem Block.fwChunk_kept_iff (a0 b : Block) (p : Packet) :
    Kept a0 (Block.fwChunk b p) = Kept a0 b := Kept.cong (Block.fwChunk_kept b p)

theorem Block.fwActivatePkt_kept (b : Block) (p : Packet) : Kept b (Block.fwActivatePkt b p) := by
  unfold Block.fwActivatePkt
  simp

@[simp] theorem Block.fwActivatePkt_kept_iff (a0 b : Block) (p : Packet) :
    Kept a0 (Block.fwActivatePkt b p) = Kept a0 b := Kept.cong (Block.fwActivatePkt_kept b p)

theorem Block.sealWrite_kept (b : Block) (w : Word) : Kept b (Block.sealWrite b w) := by
  unfold Block.sealWrite
  simp

@[simp] theorem Block.sealWrite_kept_iff (a0 b : Block) (w : Word) :
    Kept a0 (Block.sealWrite b w) = Kept a0 b := Kept.cong (Block.sealWrite_kept b w)

theorem Block.trainingEnd_kept (b : Block) : Kept b (Block.trainingEnd b) := by
  unfold Block.trainingEnd
  simp

@[simp] theorem Block.trainingEnd_kept_iff (a0 b : Block) :
    Kept a0 (Block.trainingEnd b) = Kept a0 b := Kept.cong (Block.trainingEnd_kept b)

theorem Block.step9_kept (b : Block) : Kept b (Block.step9 b) := by
  unfold Block.step9
  simp

@[simp] theorem Block.step9_kept_iff (a0 b : Block) :
    Kept a0 (Block.step9 b) = Kept a0 b := Kept.cong (Block.step9_kept b)

theorem Block.knownAnswer_kept (b : Block) (eng : Nat) (seqOk : Bool) : Kept b (Block.knownAnswer b eng seqOk) := by
  unfold Block.knownAnswer
  simp

@[simp] theorem Block.knownAnswer_kept_iff (a0 b : Block) (eng : Nat) (seqOk : Bool) :
    Kept a0 (Block.knownAnswer b eng seqOk) = Kept a0 b := Kept.cong (Block.knownAnswer_kept b eng seqOk)

theorem Block.step10_kept (b : Block) : Kept b (Block.step10 b) := by
  unfold Block.step10
  simp

@[simp] theorem Block.step10_kept_iff (a0 b : Block) :
    Kept a0 (Block.step10 b) = Kept a0 b := Kept.cong (Block.step10_kept b)

theorem Block.mildomAnswer_kept (b : Block) (status : Nat) (data : List Byte) : Kept b (Block.mildomAnswer b status data) := by
  unfold Block.mildomAnswer
  simp

@[simp] theorem Block.mildomAnswer_kept_iff (a0 b : Block) (status : Nat) (data : List Byte) :
    Kept a0 (Block.mildomAnswer b status data) = Kept a0 b := Kept.cong (Block.mildomAnswer_kept b status data)

theorem Block.mildom_kept (b : Block) (request : List Byte) (crc : Nat) (go : Block → Block) (h_go : ∀ z, Kept z (go z)) :
    Kept b (Block.mildom b request crc go) := by
  unfold Block.mildom
  simp [h_go]

@[simp] theorem Block.mildom_kept_iff (a0 b : Block) (request : List Byte) (crc : Nat) (go : Block → Block) (h_go : ∀
    z, Kept z (go z)) :
    Kept a0 (Block.mildom b request crc go) = Kept a0 b := Kept.cong (Block.mildom_kept b request crc go h_go)

theorem Block.mildom_stays (b : Block) (request : List Byte) (crc : Nat) (go : Block → Block) (h : ∀ z, Stays z (go z)) : Stays
    b (Block.mildom b request crc go) := by
  unfold Block.mildom
  exact Stays.ite (Stays.of_kept (by simp)) (Stays.ite (Stays.of_kept (by simp)) (Stays.ite (Stays.of_kept (by simp)) (h b)))

theorem Block.bootWait_kept (b : Block) (ok : Bool) (go : Block → Block) (h_go : ∀ z, Kept z (go z)) :
    Kept b (Block.bootWait b ok go) := by
  unfold Block.bootWait
  simp [h_go]

@[simp] theorem Block.bootWait_kept_iff (a0 b : Block) (ok : Bool) (go : Block → Block) (h_go : ∀ z, Kept z (go z)) :
    Kept a0 (Block.bootWait b ok go) = Kept a0 b := Kept.cong (Block.bootWait_kept b ok go h_go)

theorem Block.imageOffer_kept (b : Block) (len crc : Nat) : Kept b (Block.imageOffer b len crc) := by
  exact Block.mildom_kept _ _ _ _ (fun z => Block.bootWait_kept z _ _ fun z => by simp)

@[simp] theorem Block.imageOffer_kept_iff (a0 b : Block) (len : Nat) (crc : Nat) :
    Kept a0 (Block.imageOffer b len crc) = Kept a0 b := Kept.cong (Block.imageOffer_kept b len crc)

theorem Block.imageData_kept (b : Block) (off : Nat) (data : List Byte) (crc : Nat) :
    Kept b (Block.imageData b off data crc) := by
  exact Block.mildom_kept _ _ _ _ (fun z => Block.bootWait_kept z _ _ fun z => by simp)

@[simp] theorem Block.imageData_kept_iff (a0 b : Block) (off : Nat) (data : List Byte) (crc : Nat) :
    Kept a0 (Block.imageData b off data crc) = Kept a0 b := Kept.cong (Block.imageData_kept b off data crc)

theorem Block.imageEnd_kept (b : Block) (q : MildomReq) : Kept b (Block.imageEnd b q) := by
  unfold Block.imageEnd
  refine Block.mildom_kept _ _ _ _ (fun z => ?_)
  split
  · exact Block.bootWait_kept z _ _ fun z => by simp
  · simp

@[simp] theorem Block.imageEnd_kept_iff (a0 b : Block) (q : MildomReq) :
    Kept a0 (Block.imageEnd b q) = Kept a0 b := Kept.cong (Block.imageEnd_kept b q)

theorem Block.mildomReset_kept (b : Block) (level : Nat) (crc : Nat) : Kept b (Block.mildomReset b level crc) := by
  unfold Block.mildomReset
  simp

@[simp] theorem Block.mildomReset_kept_iff (a0 b : Block) (level : Nat) (crc : Nat) :
    Kept a0 (Block.mildomReset b level crc) = Kept a0 b := Kept.cong (Block.mildomReset_kept b level crc)

theorem Block.entdaa_kept (b : Block) (addr : Nat) : Kept b (Block.entdaa b addr) := by
  unfold Block.entdaa
  simp

@[simp] theorem Block.entdaa_kept_iff (a0 b : Block) (addr : Nat) :
    Kept a0 (Block.entdaa b addr) = Kept a0 b := Kept.cong (Block.entdaa_kept b addr)

theorem Block.jtag_kept (b : Block) (ir : Nat) (dr : Nat) : Kept b (Block.jtag b ir dr) := by
  unfold Block.jtag
  simp

@[simp] theorem Block.jtag_kept_iff (a0 b : Block) (ir : Nat) (dr : Nat) :
    Kept a0 (Block.jtag b ir dr) = Kept a0 b := Kept.cong (Block.jtag_kept b ir dr)

theorem Block.sample_kept (b : Block) (sampled : Nat) (preload : Nat) : Kept b (Block.sample b sampled preload) := by
  unfold Block.sample
  simp

@[simp] theorem Block.sample_kept_iff (a0 b : Block) (sampled : Nat) (preload : Nat) :
    Kept a0 (Block.sample b sampled preload) = Kept a0 b := Kept.cong (Block.sample_kept b sampled preload)

theorem Block.extest_kept (b : Block) (ir : Nat) : Kept b (Block.extest b ir) := by
  unfold Block.extest
  simp

@[simp] theorem Block.extest_kept_iff (a0 b : Block) (ir : Nat) :
    Kept a0 (Block.extest b ir) = Kept a0 b := Kept.cong (Block.extest_kept b ir)

theorem Block.fuseWrite_stays (b : Block) (code w : Nat) : Stays b (b.fuseWrite code w) := by
  unfold Block.fuseWrite
  (repeat' split)
  · exact Stays.of_kept (by simp)
  · exact Stays.of_kept (by simp)
  · rename_i h
    have k : Kept ({ b with boot := { b.boot with fuseVariant := some code } } : Block)
      ((({ b with boot := { b.boot with fuseVariant := some code } } : Block).setRf wCode 8 8 0).setRf wCode 3 0 code) := by simp
    exact ⟨fun v hv => by simp [hv] at h, fun v hv => k.2.trans hv⟩

theorem Block.zeroTables_kept (b : Block) : Kept b (Block.zeroTables b) := by
  unfold Block.zeroTables
  simp

@[simp] theorem Block.zeroTables_kept_iff (a0 b : Block) :
    Kept a0 (Block.zeroTables b) = Kept a0 b := Kept.cong (Block.zeroTables_kept b)

theorem Block.zeroHamper_kept (b : Block) : Kept b (Block.zeroHamper b) := by
  unfold Block.zeroHamper
  simp

@[simp] theorem Block.zeroHamper_kept_iff (a0 b : Block) :
    Kept a0 (Block.zeroHamper b) = Kept a0 b := Kept.cong (Block.zeroHamper_kept b)

theorem Block.zeroBuffers_kept (b : Block) : Kept b (Block.zeroBuffers b) := by
  unfold Block.zeroBuffers
  simp

@[simp] theorem Block.zeroBuffers_kept_iff (a0 b : Block) :
    Kept a0 (Block.zeroBuffers b) = Kept a0 b := Kept.cong (Block.zeroBuffers_kept b)

theorem Block.failedDown_kept (b : Block) (port : Nat) : Kept b (Block.failedDown b port) := by
  unfold Block.failedDown
  simp

@[simp] theorem Block.failedDown_kept_iff (a0 b : Block) (port : Nat) :
    Kept a0 (Block.failedDown b port) = Kept a0 b := Kept.cong (Block.failedDown_kept b port)

theorem Block.mbist_kept (b : Block) (eng : Nat) (port : Nat) (other : Bool) : Kept b (Block.mbist b eng port other) := by
  unfold Block.mbist
  simp

@[simp] theorem Block.mbist_kept_iff (a0 b : Block) (eng : Nat) (port : Nat) (other : Bool) :
    Kept a0 (Block.mbist b eng port other) = Kept a0 b := Kept.cong (Block.mbist_kept b eng port other)

theorem Block.autoInc_kept (b : Block) (w : Nat) (hi : Nat) : Kept b (Block.autoInc b w hi) := by
  unfold Block.autoInc
  simp

@[simp] theorem Block.autoInc_kept_iff (a0 b : Block) (w : Nat) (hi : Nat) :
    Kept a0 (Block.autoInc b w hi) = Kept a0 b := Kept.cong (Block.autoInc_kept b w hi)

theorem Block.afterRead_kept (b : Block) (w : Nat) : Kept b (Block.afterRead b w) := by
  unfold Block.afterRead
  simp

@[simp] theorem Block.afterRead_kept_iff (a0 b : Block) (w : Nat) :
    Kept a0 (Block.afterRead b w) = Kept a0 b := Kept.cong (Block.afterRead_kept b w)

theorem Block.regFind_kept (b : Block) (write : Bool) (w : Nat) (d : Darn) : Kept b (Block.regFind b write w d) := by
  unfold Block.regFind
  simp

@[simp] theorem Block.regFind_kept_iff (a0 b : Block) (write : Bool) (w : Nat) (d : Darn) :
    Kept a0 (Block.regFind b write w d) = Kept a0 b := Kept.cong (Block.regFind_kept b write w d)

theorem Block.readReg_kept (b : Block) (w : Nat) (d : Darn) : Kept b (Block.readReg b w d).1 := by
  unfold Block.readReg
  simp

@[simp] theorem Block.readReg_kept_iff (a0 b : Block) (w : Nat) (d : Darn) :
    Kept a0 (Block.readReg b w d).1 = Kept a0 b := Kept.cong (Block.readReg_kept b w d)

theorem Block.answer_kept (b : Block) (v : Word) (err : Bool) : Kept b (Block.answer b v err) := by
  unfold Block.answer
  simp

@[simp] theorem Block.answer_kept_iff (a0 b : Block) (v : Word) (err : Bool) :
    Kept a0 (Block.answer b v err) = Kept a0 b := Kept.cong (Block.answer_kept b v err)

theorem Block.rpAccess_kept (b : Block) (w : Nat) (v : Word) (wchk : Nat) (go : Block → Block × Word) (h : ∀ z, Kept z (go z).1) :
    Kept b (Block.rpAccess b w v wchk go) := by
  unfold Block.rpAccess
  split
  · simp [h]
  · simp

@[simp] theorem Block.rpAccess_kept_iff (a0 b : Block) (w : Nat) (v : Word) (wchk : Nat) (go : Block → Block × Word)
    (h : ∀ z, Kept z (go z).1) :
    Kept a0 (Block.rpAccess b w v wchk go) = Kept a0 b := Kept.cong (Block.rpAccess_kept b w v wchk go h)

theorem Block.rpAccess_stays (b : Block) (w : Nat) (v : Word) (wchk : Nat) (go : Block → Block × Word) (h : ∀ z, Stays z (go
    z).1) :
    Stays b (Block.rpAccess b w v wchk go) := by
  unfold Block.rpAccess
  exact Stays.ite ((h b).trans (Stays.of_kept (by simp))) (Stays.of_kept (by simp))

theorem Block.portRead_kept (b : Block) (w : Nat) (d : Darn) (wdata : Word) (wchk : Nat) :
    Kept b (Block.portRead b w d wdata wchk) := by
  unfold Block.portRead
  simp

@[simp] theorem Block.portRead_kept_iff (a0 b : Block) (w : Nat) (d : Darn) (wdata : Word) (wchk : Nat) :
    Kept a0 (Block.portRead b w d wdata wchk) = Kept a0 b := Kept.cong (Block.portRead_kept b w d wdata wchk)

end Sys2Proof.Machine
end

