-- ==== Sys2Proof/Laws/KeptRegs.lean ====
section
/-!
SUPPORT. Register writes, creases and packets of the management core: each operation keeps the variant code and the key root.
-/

namespace Sys2Proof.Machine

theorem Block.refuse_kept (b : Block) (w : Nat) : Kept b (Block.refuse b w) := by
  unfold Block.refuse
  simp

@[simp] theorem Block.refuse_kept_iff (a0 b : Block) (w : Nat) :
    Kept a0 (Block.refuse b w) = Kept a0 b := Kept.cong (Block.refuse_kept b w)

theorem Block.gate_kept (b : Block) (any : Bool) (priv : Bool) (w : Nat) (go : Block → Block) (h_go : ∀ z, Kept z (go z)) :
    Kept b (Block.gate b any priv w go) := by
  unfold Block.gate
  simp [h_go]

@[simp] theorem Block.gate_kept_iff (a0 b : Block) (any : Bool) (priv : Bool) (w : Nat) (go : Block → Block) (h_go : ∀
    z, Kept z (go z)) :
    Kept a0 (Block.gate b any priv w go) = Kept a0 b := Kept.cong (Block.gate_kept b any priv w go h_go)

theorem Block.gate_stays (b : Block) (any priv : Bool) (w : Nat) (go : Block → Block) (h : ∀ z, Stays z (go z)) : Stays b
    (Block.gate b any priv w go) := by
  unfold Block.gate
  exact Stays.ite (Stays.of_kept (by simp)) (Stays.ite (h b) (Stays.of_kept (by simp)))

theorem Block.store_kept (b : Block) (w : Nat) (v : Word) : Kept b (Block.store b w v) := by
  unfold Block.store
  (repeat' split) <;> simp

@[simp] theorem Block.store_kept_iff (a0 b : Block) (w : Nat) (v : Word) :
    Kept a0 (Block.store b w v) = Kept a0 b := Kept.cong (Block.store_kept b w v)

theorem Block.storeIf_kept (b : Block) (ok : Bool) (w : Nat) (v : Word) : Kept b (Block.storeIf b ok w v) := by
  unfold Block.storeIf
  simp

@[simp] theorem Block.storeIf_kept_iff (a0 b : Block) (ok : Bool) (w : Nat) (v : Word) :
    Kept a0 (Block.storeIf b ok w v) = Kept a0 b := Kept.cong (Block.storeIf_kept b ok w v)

theorem Block.segmapWrite_kept (b : Block) (v : Word) : Kept b (Block.segmapWrite b v) := by
  unfold Block.segmapWrite
  simp

@[simp] theorem Block.segmapWrite_kept_iff (a0 b : Block) (v : Word) :
    Kept a0 (Block.segmapWrite b v) = Kept a0 b := Kept.cong (Block.segmapWrite_kept b v)

theorem Block.segFenceWrite_kept (b : Block) (v : Word) : Kept b (Block.segFenceWrite b v) := by
  unfold Block.segFenceWrite
  simp

@[simp] theorem Block.segFenceWrite_kept_iff (a0 b : Block) (v : Word) :
    Kept a0 (Block.segFenceWrite b v) = Kept a0 b := Kept.cong (Block.segFenceWrite_kept b v)

theorem Block.segFenceDone_kept (b : Block) : Kept b (Block.segFenceDone b) := by
  unfold Block.segFenceDone
  simp

@[simp] theorem Block.segFenceDone_kept_iff (a0 b : Block) :
    Kept a0 (Block.segFenceDone b) = Kept a0 b := Kept.cong (Block.segFenceDone_kept b)

theorem Block.keyRootWrite_stays (b : Block) (v : Word) : Stays b (b.keyRootWrite v) := by
  unfold Block.keyRootWrite
  split
  · exact Stays.of_kept (by simp)
  · rename_i h
    have k : Kept ({ b with keyRoot := some v } : Block) (({ b with keyRoot := some v } : Block).setRf (sg 0x080) 0 0 0) :=
        by simp
    exact ⟨fun v hv => k.1.trans hv, fun v hv => by simp [hv] at h⟩

theorem Block.ctrValueWrite_kept (b : Block) (v : Word) : Kept b (Block.ctrValueWrite b v) := by
  unfold Block.ctrValueWrite
  simp

@[simp] theorem Block.ctrValueWrite_kept_iff (a0 b : Block) (v : Word) :
    Kept a0 (Block.ctrValueWrite b v) = Kept a0 b := Kept.cong (Block.ctrValueWrite_kept b v)

theorem Block.ctrAddWrite_kept (b : Block) (v : Word) (d : Darn) : Kept b (Block.ctrAddWrite b v d) := by
  unfold Block.ctrAddWrite
  simp

@[simp] theorem Block.ctrAddWrite_kept_iff (a0 b : Block) (v : Word) (d : Darn) :
    Kept a0 (Block.ctrAddWrite b v d) = Kept a0 b := Kept.cong (Block.ctrAddWrite_kept b v d)

theorem Block.ctrGroupWrite_kept (b : Block) (v : Word) : Kept b (Block.ctrGroupWrite b v) := by
  unfold Block.ctrGroupWrite
  simp

@[simp] theorem Block.ctrGroupWrite_kept_iff (a0 b : Block) (v : Word) :
    Kept a0 (Block.ctrGroupWrite b v) = Kept a0 b := Kept.cong (Block.ctrGroupWrite_kept b v)

theorem Block.ctrFenceWrite_kept (b : Block) (v : Word) : Kept b (Block.ctrFenceWrite b v) := by
  unfold Block.ctrFenceWrite
  simp

@[simp] theorem Block.ctrFenceWrite_kept_iff (a0 b : Block) (v : Word) :
    Kept a0 (Block.ctrFenceWrite b v) = Kept a0 b := Kept.cong (Block.ctrFenceWrite_kept b v)

theorem Block.mirrorWrite_kept (b : Block) (n : Nat) (d : Darn) : Kept b (Block.mirrorWrite b n d) := by
  unfold Block.mirrorWrite
  simp

@[simp] theorem Block.mirrorWrite_kept_iff (a0 b : Block) (n : Nat) (d : Darn) :
    Kept a0 (Block.mirrorWrite b n d) = Kept a0 b := Kept.cong (Block.mirrorWrite_kept b n d)

theorem Block.ctrFenceDone_kept (b : Block) : Kept b (Block.ctrFenceDone b) := by
  unfold Block.ctrFenceDone
  simp

@[simp] theorem Block.ctrFenceDone_kept_iff (a0 b : Block) :
    Kept a0 (Block.ctrFenceDone b) = Kept a0 b := Kept.cong (Block.ctrFenceDone_kept b)

theorem Block.profileWrite_kept (b : Block) (p : Nat) (v : Word) : Kept b (Block.profileWrite b p v) := by
  unfold Block.profileWrite
  simp

@[simp] theorem Block.profileWrite_kept_iff (a0 b : Block) (p : Nat) (v : Word) :
    Kept a0 (Block.profileWrite b p v) = Kept a0 b := Kept.cong (Block.profileWrite_kept b p v)

theorem Block.seedWrite_kept (b : Block) (v : Word) : Kept b (Block.seedWrite b v) := by
  unfold Block.seedWrite
  simp

@[simp] theorem Block.seedWrite_kept_iff (a0 b : Block) (v : Word) :
    Kept a0 (Block.seedWrite b v) = Kept a0 b := Kept.cong (Block.seedWrite_kept b v)

theorem Block.engineControl_kept (b : Block) (e : Nat) (v : Word) : Kept b (Block.engineControl b e v) := by
  unfold Block.engineControl
  simp

@[simp] theorem Block.engineControl_kept_iff (a0 b : Block) (e : Nat) (v : Word) :
    Kept a0 (Block.engineControl b e v) = Kept a0 b := Kept.cong (Block.engineControl_kept b e v)

theorem Block.ucodeLoad_kept (b : Block) (e : Nat) (v : Word) : Kept b (Block.ucodeLoad b e v) := by
  unfold Block.ucodeLoad
  simp

@[simp] theorem Block.ucodeLoad_kept_iff (a0 b : Block) (e : Nat) (v : Word) :
    Kept a0 (Block.ucodeLoad b e v) = Kept a0 b := Kept.cong (Block.ucodeLoad_kept b e v)

theorem Block.ucodeLoadDone_kept (b : Block) (e : Nat) (digest : Bool) (sig : Bool) (ok : Bool) :
    Kept b (Block.ucodeLoadDone b e digest sig ok) := by
  unfold Block.ucodeLoadDone
  simp

@[simp] theorem Block.ucodeLoadDone_kept_iff (a0 b : Block) (e : Nat) (digest : Bool) (sig : Bool) (ok : Bool) :
    Kept a0 (Block.ucodeLoadDone b e digest sig ok) = Kept a0 b := Kept.cong (Block.ucodeLoadDone_kept b e digest sig ok)

theorem Block.chanControl_kept (b : Block) (n : Nat) (v : Word) : Kept b (Block.chanControl b n v) := by
  unfold Block.chanControl
  simp

@[simp] theorem Block.chanControl_kept_iff (a0 b : Block) (n : Nat) (v : Word) :
    Kept a0 (Block.chanControl b n v) = Kept a0 b := Kept.cong (Block.chanControl_kept b n v)

theorem Block.mapWrite_kept (b : Block) (o : Nat) (v : Word) : Kept b (Block.mapWrite b o v) := by
  unfold Block.mapWrite
  simp

@[simp] theorem Block.mapWrite_kept_iff (a0 b : Block) (o : Nat) (v : Word) :
    Kept a0 (Block.mapWrite b o v) = Kept a0 b := Kept.cong (Block.mapWrite_kept b o v)

theorem Block.kernelBoundary_kept (b : Block) (v : Word) (d : Darn) : Kept b (Block.kernelBoundary b v d) := by
  unfold Block.kernelBoundary
  simp

@[simp] theorem Block.kernelBoundary_kept_iff (a0 b : Block) (v : Word) (d : Darn) :
    Kept a0 (Block.kernelBoundary b v d) = Kept a0 b := Kept.cong (Block.kernelBoundary_kept b v d)

theorem Block.streamEnable_kept (b : Block) (k : Nat) (v : Word) : Kept b (Block.streamEnable b k v) := by
  unfold Block.streamEnable
  simp

@[simp] theorem Block.streamEnable_kept_iff (a0 b : Block) (k : Nat) (v : Word) :
    Kept a0 (Block.streamEnable b k v) = Kept a0 b := Kept.cong (Block.streamEnable_kept b k v)

theorem Block.doorbell_kept (b : Block) (s : Nat) (v : Word) : Kept b (Block.doorbell b s v) := by
  unfold Block.doorbell
  simp

@[simp] theorem Block.doorbell_kept_iff (a0 b : Block) (s : Nat) (v : Word) :
    Kept a0 (Block.doorbell b s v) = Kept a0 b := Kept.cong (Block.doorbell_kept b s v)

theorem Block.pstoreLock_kept (b : Block) (v : Word) : Kept b (Block.pstoreLock b v) := by
  unfold Block.pstoreLock
  simp

@[simp] theorem Block.pstoreLock_kept_iff (a0 b : Block) (v : Word) :
    Kept a0 (Block.pstoreLock b v) = Kept a0 b := Kept.cong (Block.pstoreLock_kept b v)

theorem Block.lockClears_kept (b : Block) (g : Nat) : Kept b (Block.lockClears b g) := by
  unfold Block.lockClears
  simp

@[simp] theorem Block.lockClears_kept_iff (a0 b : Block) (g : Nat) :
    Kept a0 (Block.lockClears b g) = Kept a0 b := Kept.cong (Block.lockClears_kept b g)

theorem Block.pstoreHigh_kept (b : Block) (x : Nat) (v : Word) : Kept b (Block.pstoreHigh b x v) := by
  unfold Block.pstoreHigh
  simp

@[simp] theorem Block.pstoreHigh_kept_iff (a0 b : Block) (x : Nat) (v : Word) :
    Kept a0 (Block.pstoreHigh b x v) = Kept a0 b := Kept.cong (Block.pstoreHigh_kept b x v)

theorem Block.routeWrite_kept (b : Block) (v : Word) : Kept b (Block.routeWrite b v) := by
  unfold Block.routeWrite
  simp

@[simp] theorem Block.routeWrite_kept_iff (a0 b : Block) (v : Word) :
    Kept a0 (Block.routeWrite b v) = Kept a0 b := Kept.cong (Block.routeWrite_kept b v)

theorem Block.switchTick_kept (b : Block) (v : Word) : Kept b (Block.switchTick b v) := by
  unfold Block.switchTick
  simp

@[simp] theorem Block.switchTick_kept_iff (a0 b : Block) (v : Word) :
    Kept a0 (Block.switchTick b v) = Kept a0 b := Kept.cong (Block.switchTick_kept b v)

theorem Block.mcGroupWrite_kept (b : Block) (v : Word) : Kept b (Block.mcGroupWrite b v) := by
  unfold Block.mcGroupWrite
  simp

@[simp] theorem Block.mcGroupWrite_kept_iff (a0 b : Block) (v : Word) :
    Kept a0 (Block.mcGroupWrite b v) = Kept a0 b := Kept.cong (Block.mcGroupWrite_kept b v)

theorem Block.hamperLimits_kept (b : Block) (v : Word) : Kept b (Block.hamperLimits b v) := by
  unfold Block.hamperLimits
  simp

@[simp] theorem Block.hamperLimits_kept_iff (a0 b : Block) (v : Word) :
    Kept a0 (Block.hamperLimits b v) = Kept a0 b := Kept.cong (Block.hamperLimits_kept b v)

theorem Block.flushWrite_kept (b : Block) (v : Word) : Kept b (Block.flushWrite b v) := by
  unfold Block.flushWrite
  simp

@[simp] theorem Block.flushWrite_kept_iff (a0 b : Block) (v : Word) :
    Kept a0 (Block.flushWrite b v) = Kept a0 b := Kept.cong (Block.flushWrite_kept b v)

theorem Block.linkControl_kept (b : Block) (p : Nat) (v : Word) : Kept b (Block.linkControl b p v) := by
  unfold Block.linkControl
  simp

@[simp] theorem Block.linkControl_kept_iff (a0 b : Block) (p : Nat) (v : Word) :
    Kept a0 (Block.linkControl b p v) = Kept a0 b := Kept.cong (Block.linkControl_kept b p v)

theorem Block.creditWrite_kept (b : Block) (p : Nat) (v : Word) : Kept b (Block.creditWrite b p v) := by
  unfold Block.creditWrite
  simp

@[simp] theorem Block.creditWrite_kept_iff (a0 b : Block) (p : Nat) (v : Word) :
    Kept a0 (Block.creditWrite b p v) = Kept a0 b := Kept.cong (Block.creditWrite_kept b p v)

theorem Block.shareWrite_kept (b : Block) (p : Nat) (v : Word) : Kept b (Block.shareWrite b p v) := by
  unfold Block.shareWrite
  simp

@[simp] theorem Block.shareWrite_kept_iff (a0 b : Block) (p : Nat) (v : Word) :
    Kept a0 (Block.shareWrite b p v) = Kept a0 b := Kept.cong (Block.shareWrite_kept b p v)

theorem Block.bitslipWrite_kept (b : Block) (p : Nat) (v : Word) : Kept b (Block.bitslipWrite b p v) := by
  unfold Block.bitslipWrite
  simp

@[simp] theorem Block.bitslipWrite_kept_iff (a0 b : Block) (p : Nat) (v : Word) :
    Kept a0 (Block.bitslipWrite b p v) = Kept a0 b := Kept.cong (Block.bitslipWrite_kept b p v)

theorem Block.testWrite_kept (b : Block) (p : Nat) (v : Word) : Kept b (Block.testWrite b p v) := by
  unfold Block.testWrite
  simp

@[simp] theorem Block.testWrite_kept_iff (a0 b : Block) (p : Nat) (v : Word) :
    Kept a0 (Block.testWrite b p v) = Kept a0 b := Kept.cong (Block.testWrite_kept b p v)

theorem Block.ctxWrite_kept (b : Block) (v : Word) : Kept b (Block.ctxWrite b v) := by
  unfold Block.ctxWrite
  simp

@[simp] theorem Block.ctxWrite_kept_iff (a0 b : Block) (v : Word) :
    Kept a0 (Block.ctxWrite b v) = Kept a0 b := Kept.cong (Block.ctxWrite_kept b v)

theorem Block.rinseWrite_kept (b : Block) (v : Word) : Kept b (Block.rinseWrite b v) := by
  unfold Block.rinseWrite
  simp

@[simp] theorem Block.rinseWrite_kept_iff (a0 b : Block) (v : Word) :
    Kept a0 (Block.rinseWrite b v) = Kept a0 b := Kept.cong (Block.rinseWrite_kept b v)

theorem Block.soloWrite_kept (b : Block) (v : Word) : Kept b (Block.soloWrite b v) := by
  unfold Block.soloWrite
  simp

@[simp] theorem Block.soloWrite_kept_iff (a0 b : Block) (v : Word) :
    Kept a0 (Block.soloWrite b v) = Kept a0 b := Kept.cong (Block.soloWrite_kept b v)

theorem Block.resetRequest_kept (b : Block) (v : Word) : Kept b (Block.resetRequest b v) := by
  unfold Block.resetRequest
  (repeat' split) <;> simp

@[simp] theorem Block.resetRequest_kept_iff (a0 b : Block) (v : Word) :
    Kept a0 (Block.resetRequest b v) = Kept a0 b := Kept.cong (Block.resetRequest_kept b v)

theorem Block.resetControl_kept (b : Block) (v : Word) : Kept b (Block.resetControl b v) := by
  unfold Block.resetControl
  simp

@[simp] theorem Block.resetControl_kept_iff (a0 b : Block) (v : Word) :
    Kept a0 (Block.resetControl b v) = Kept a0 b := Kept.cong (Block.resetControl_kept b v)

theorem Block.watchdogWrite_kept (b : Block) (v : Word) : Kept b (Block.watchdogWrite b v) := by
  unfold Block.watchdogWrite
  simp

@[simp] theorem Block.watchdogWrite_kept_iff (a0 b : Block) (v : Word) :
    Kept a0 (Block.watchdogWrite b v) = Kept a0 b := Kept.cong (Block.watchdogWrite_kept b v)

theorem Block.watchdogKick_kept (b : Block) (firmware : Bool) (v : Word) (wchk : Nat) :
    Kept b (Block.watchdogKick b firmware v wchk) := by
  unfold Block.watchdogKick
  simp

@[simp] theorem Block.watchdogKick_kept_iff (a0 b : Block) (firmware : Bool) (v : Word) (wchk : Nat) :
    Kept a0 (Block.watchdogKick b firmware v wchk) = Kept a0 b := Kept.cong (Block.watchdogKick_kept b firmware v wchk)

theorem Block.featuresWrite_kept (b : Block) (v : Word) : Kept b (Block.featuresWrite b v) := by
  unfold Block.featuresWrite
  simp

@[simp] theorem Block.featuresWrite_kept_iff (a0 b : Block) (v : Word) :
    Kept a0 (Block.featuresWrite b v) = Kept a0 b := Kept.cong (Block.featuresWrite_kept b v)

theorem Block.fwLoadWrite_kept (b : Block) (v : Word) : Kept b (Block.fwLoadWrite b v) := by
  unfold Block.fwLoadWrite
  simp

@[simp] theorem Block.fwLoadWrite_kept_iff (a0 b : Block) (v : Word) :
    Kept a0 (Block.fwLoadWrite b v) = Kept a0 b := Kept.cong (Block.fwLoadWrite_kept b v)

theorem Block.fwActivateWrite_kept (b : Block) (v : Word) : Kept b (Block.fwActivateWrite b v) := by
  unfold Block.fwActivateWrite
  simp

@[simp] theorem Block.fwActivateWrite_kept_iff (a0 b : Block) (v : Word) :
    Kept a0 (Block.fwActivateWrite b v) = Kept a0 b := Kept.cong (Block.fwActivateWrite_kept b v)

theorem Block.fwBcastWrite_kept (b : Block) (v : Word) : Kept b (Block.fwBcastWrite b v) := by
  unfold Block.fwBcastWrite
  simp

@[simp] theorem Block.fwBcastWrite_kept_iff (a0 b : Block) (v : Word) :
    Kept a0 (Block.fwBcastWrite b v) = Kept a0 b := Kept.cong (Block.fwBcastWrite_kept b v)

theorem Block.clockWrite_kept (b : Block) (v : Word) : Kept b (Block.clockWrite b v) := by
  unfold Block.clockWrite
  simp

@[simp] theorem Block.clockWrite_kept_iff (a0 b : Block) (v : Word) :
    Kept a0 (Block.clockWrite b v) = Kept a0 b := Kept.cong (Block.clockWrite_kept b v)

theorem Block.powerDown_kept (b : Block) (p : Nat) : Kept b (Block.powerDown b p) := by
  unfold Block.powerDown
  simp

@[simp] theorem Block.powerDown_kept_iff (a0 b : Block) (p : Nat) :
    Kept a0 (Block.powerDown b p) = Kept a0 b := Kept.cong (Block.powerDown_kept b p)

theorem Block.powerWrite_kept (b : Block) (v : Word) : Kept b (Block.powerWrite b v) := by
  unfold Block.powerWrite
  simp

@[simp] theorem Block.powerWrite_kept_iff (a0 b : Block) (v : Word) :
    Kept a0 (Block.powerWrite b v) = Kept a0 b := Kept.cong (Block.powerWrite_kept b v)

theorem Block.periodWrite_kept (b : Block) (v : Word) : Kept b (Block.periodWrite b v) := by
  unfold Block.periodWrite
  simp

@[simp] theorem Block.periodWrite_kept_iff (a0 b : Block) (v : Word) :
    Kept a0 (Block.periodWrite b v) = Kept a0 b := Kept.cong (Block.periodWrite_kept b v)

theorem Block.timeCtrl_kept (b : Block) (v : Word) : Kept b (Block.timeCtrl b v) := by
  unfold Block.timeCtrl
  simp

@[simp] theorem Block.timeCtrl_kept_iff (a0 b : Block) (v : Word) :
    Kept a0 (Block.timeCtrl b v) = Kept a0 b := Kept.cong (Block.timeCtrl_kept b v)

theorem Block.clearWrite_kept (b : Block) (v : Word) : Kept b (Block.clearWrite b v) := by
  unfold Block.clearWrite
  simp

@[simp] theorem Block.clearWrite_kept_iff (a0 b : Block) (v : Word) :
    Kept a0 (Block.clearWrite b v) = Kept a0 b := Kept.cong (Block.clearWrite_kept b v)

theorem Block.snapshotWrite_kept (b : Block) (v : Word) : Kept b (Block.snapshotWrite b v) := by
  unfold Block.snapshotWrite
  simp

@[simp] theorem Block.snapshotWrite_kept_iff (a0 b : Block) (v : Word) :
    Kept a0 (Block.snapshotWrite b v) = Kept a0 b := Kept.cong (Block.snapshotWrite_kept b v)

theorem Block.creaseWrite_kept (b : Block) (v : Word) : Kept b (Block.creaseWrite b v) := by
  unfold Block.creaseWrite
  simp

@[simp] theorem Block.creaseWrite_kept_iff (a0 b : Block) (v : Word) :
    Kept a0 (Block.creaseWrite b v) = Kept a0 b := Kept.cong (Block.creaseWrite_kept b v)

theorem Block.resumeWrite_kept (b : Block) (v : Word) : Kept b (Block.resumeWrite b v) := by
  unfold Block.resumeWrite
  simp

@[simp] theorem Block.resumeWrite_kept_iff (a0 b : Block) (v : Word) :
    Kept a0 (Block.resumeWrite b v) = Kept a0 b := Kept.cong (Block.resumeWrite_kept b v)

theorem Block.markWrite_kept (b : Block) (v : Word) : Kept b (Block.markWrite b v) := by
  unfold Block.markWrite
  simp

@[simp] theorem Block.markWrite_kept_iff (a0 b : Block) (v : Word) :
    Kept a0 (Block.markWrite b v) = Kept a0 b := Kept.cong (Block.markWrite_kept b v)

theorem Block.applyPage01_stays (b : Block) (o w : Nat) (v : Word) : Stays b (Block.applyPage01 b o w v) := by
  unfold Block.applyPage01
  split
  · exact Block.fuseWrite_stays _ _ _
  all_goals exact Stays.of_kept (by simp)

theorem Block.applyLink_kept (b : Block) (p : Nat) (o : Nat) (w : Nat) (v : Word) : Kept b (Block.applyLink b p o w v) := by
  unfold Block.applyLink
  (repeat' split) <;> simp

@[simp] theorem Block.applyLink_kept_iff (a0 b : Block) (p : Nat) (o : Nat) (w : Nat) (v : Word) :
    Kept a0 (Block.applyLink b p o w v) = Kept a0 b := Kept.cong (Block.applyLink_kept b p o w v)

theorem Block.applyLane_kept (b : Block) (p : Nat) (o : Nat) (w : Nat) (v : Word) : Kept b (Block.applyLane b p o w v) := by
  unfold Block.applyLane
  (repeat' split) <;> simp

@[simp] theorem Block.applyLane_kept_iff (a0 b : Block) (p : Nat) (o : Nat) (w : Nat) (v : Word) :
    Kept a0 (Block.applyLane b p o w v) = Kept a0 b := Kept.cong (Block.applyLane_kept b p o w v)

theorem Block.applyHc_kept (b : Block) (n : Nat) (o : Nat) (w : Nat) (v : Word) (d : Darn) :
    Kept b (Block.applyHc b n o w v d) := by
  unfold Block.applyHc
  (repeat' split) <;> simp

@[simp] theorem Block.applyHc_kept_iff (a0 b : Block) (n : Nat) (o : Nat) (w : Nat) (v : Word) (d : Darn) :
    Kept a0 (Block.applyHc b n o w v d) = Kept a0 b := Kept.cong (Block.applyHc_kept b n o w v d)

theorem Block.applyMangle_kept (b : Block) (e : Nat) (o : Nat) (w : Nat) (v : Word) : Kept b (Block.applyMangle b e o w v) := by
  unfold Block.applyMangle
  simp

@[simp] theorem Block.applyMangle_kept_iff (a0 b : Block) (e : Nat) (o : Nat) (w : Nat) (v : Word) :
    Kept a0 (Block.applyMangle b e o w v) = Kept a0 b := Kept.cong (Block.applyMangle_kept b e o w v)

theorem Block.applyFold_kept (b : Block) (o : Nat) (w : Nat) (v : Word) : Kept b (Block.applyFold b o w v) := by
  unfold Block.applyFold
  simp

@[simp] theorem Block.applyFold_kept_iff (a0 b : Block) (o : Nat) (w : Nat) (v : Word) :
    Kept a0 (Block.applyFold b o w v) = Kept a0 b := Kept.cong (Block.applyFold_kept b o w v)

theorem Block.applyPstore_kept (b : Block) (x : Nat) (o : Nat) (w : Nat) (v : Word) : Kept b (Block.applyPstore b x o w v) := by
  unfold Block.applyPstore
  (repeat' split) <;> simp

@[simp] theorem Block.applyPstore_kept_iff (a0 b : Block) (x : Nat) (o : Nat) (w : Nat) (v : Word) :
    Kept a0 (Block.applyPstore b x o w v) = Kept a0 b := Kept.cong (Block.applyPstore_kept b x o w v)

theorem Block.applyRoute_kept (b : Block) (o : Nat) (w : Nat) (v : Word) : Kept b (Block.applyRoute b o w v) := by
  unfold Block.applyRoute
  (repeat' split) <;> simp

@[simp] theorem Block.applyRoute_kept_iff (a0 b : Block) (o : Nat) (w : Nat) (v : Word) :
    Kept a0 (Block.applyRoute b o w v) = Kept a0 b := Kept.cong (Block.applyRoute_kept b o w v)

theorem Block.applySegmap_stays (b : Block) (o w : Nat) (v : Word) : Stays b (Block.applySegmap b o w v) := by
  unfold Block.applySegmap
  split
  · exact Stays.of_kept (by simp)
  · exact Stays.of_kept (by simp)
  · exact Block.keyRootWrite_stays _ _
  · exact Stays.of_kept (by simp)

theorem Block.applyCtr_kept (b : Block) (o : Nat) (w : Nat) (v : Word) (d : Darn) : Kept b (Block.applyCtr b o w v d) := by
  unfold Block.applyCtr
  (repeat' split) <;> simp

@[simp] theorem Block.applyCtr_kept_iff (a0 b : Block) (o : Nat) (w : Nat) (v : Word) (d : Darn) :
    Kept a0 (Block.applyCtr b o w v d) = Kept a0 b := Kept.cong (Block.applyCtr_kept b o w v d)

theorem Block.applyCtxt_kept (b : Block) (o : Nat) (w : Nat) (v : Word) : Kept b (Block.applyCtxt b o w v) := by
  unfold Block.applyCtxt
  (repeat' split) <;> simp

@[simp] theorem Block.applyCtxt_kept_iff (a0 b : Block) (o : Nat) (w : Nat) (v : Word) :
    Kept a0 (Block.applyCtxt b o w v) = Kept a0 b := Kept.cong (Block.applyCtxt_kept b o w v)

theorem Block.applyDebug_kept (b : Block) (o : Nat) (w : Nat) (v : Word) : Kept b (Block.applyDebug b o w v) := by
  unfold Block.applyDebug
  (repeat' split) <;> simp

@[simp] theorem Block.applyDebug_kept_iff (a0 b : Block) (o : Nat) (w : Nat) (v : Word) :
    Kept a0 (Block.applyDebug b o w v) = Kept a0 b := Kept.cong (Block.applyDebug_kept b o w v)

theorem Block.regApply_stays (b : Block) (w : Nat) (v : Word) (d : Darn) : Stays b (Block.regApply b w v d) := by
  unfold Block.regApply
  dsimp only
  split
  · exact Stays.of_kept (by simp)
  · split
    case h_2 => exact Block.applyPage01_stays _ _ _ _
    case h_12 => exact Block.applySegmap_stays _ _ _ _
    all_goals exact Stays.of_kept (by simp)

theorem Block.regWrite_stays (b : Block) (priv : Bool) (w : Nat) (v : Word) (d : Darn) : Stays b (Block.regWrite b priv w v d) :=
  Block.gate_stays _ _ _ _ _ fun z => Block.regApply_stays z w v d

theorem Block.remoteWrite_stays (b : Block) (w : Nat) (v : Word) (d : Darn) : Stays b (Block.remoteWrite b w v d) :=
  Block.regWrite_stays _ _ _ _ _

theorem Block.portWrite_stays (b : Block) (priv : Bool) (w : Nat) (v : Word) (d : Darn) (wchk : Nat) :
    Stays b (Block.portWrite b priv w v d wchk) := Block.rpAccess_stays _ _ _ _ _ fun z => Block.regWrite_stays z priv w v d

theorem Block.portGate_kept (b : Block) (any : Bool) (rp : Rp) (w : Nat) (v : Word) (go : Block → Block) (h_go : ∀ z, Kept z (go
    z)) :
    Kept b (Block.portGate b any rp w v go) := by
  unfold Block.portGate
  simp [h_go]

@[simp] theorem Block.portGate_kept_iff (a0 b : Block) (any : Bool) (rp : Rp) (w : Nat) (v : Word) (go : Block →
    Block) (h_go : ∀ z, Kept z (go z)) :
    Kept a0 (Block.portGate b any rp w v go) = Kept a0 b := Kept.cong (Block.portGate_kept b any rp w v go h_go)

theorem Block.portGate_stays (b : Block) (any : Bool) (rp : Rp) (w : Nat) (v : Word) (go : Block → Block) (h : ∀ z, Stays z (go
    z)) :
    Stays b (Block.portGate b any rp w v go) := Block.rpAccess_stays _ _ _ _ _ fun z => Block.gate_stays z any rp.priv w go h

theorem Block.takeSnapshot_kept (b : Block) (cause : Nat) : Kept b (Block.takeSnapshot b cause) := by
  unfold Block.takeSnapshot
  simp

@[simp] theorem Block.takeSnapshot_kept_iff (a0 b : Block) (cause : Nat) :
    Kept a0 (Block.takeSnapshot b cause) = Kept a0 b := Kept.cong (Block.takeSnapshot_kept b cause)

theorem Block.snapshot_kept (b : Block) : Kept b (Block.snapshot b) := by
  unfold Block.snapshot
  (repeat' split) <;> simp

@[simp] theorem Block.snapshot_kept_iff (a0 b : Block) :
    Kept a0 (Block.snapshot b) = Kept a0 b := Kept.cong (Block.snapshot_kept b)

theorem Block.creaseCut_kept (b : Block) : Kept b (Block.creaseCut b) := by
  unfold Block.creaseCut
  simp

@[simp] theorem Block.creaseCut_kept_iff (a0 b : Block) :
    Kept a0 (Block.creaseCut b) = Kept a0 b := Kept.cong (Block.creaseCut_kept b)

theorem Block.creaseResume_kept (b : Block) : Kept b (Block.creaseResume b) := by
  unfold Block.creaseResume
  simp

@[simp] theorem Block.creaseResume_kept_iff (a0 b : Block) :
    Kept a0 (Block.creaseResume b) = Kept a0 b := Kept.cong (Block.creaseResume_kept b)

theorem Block.deliver_kept (b : Block) (p : Packet) (go : Block → Block) (h_go : ∀ z, Kept z (go z)) :
    Kept b (Block.deliver b p go) := by
  unfold Block.deliver
  simp [Kept.cong (h_go _)]

@[simp] theorem Block.deliver_kept_iff (a0 b : Block) (p : Packet) (go : Block → Block) (h_go : ∀ z, Kept z (go z)) :
    Kept a0 (Block.deliver b p go) = Kept a0 b := Kept.cong (Block.deliver_kept b p go h_go)

theorem Block.deliver_stays (b : Block) (p : Packet) (go : Block → Block) (h : ∀ z, Stays z (go z)) : Stays b (Block.deliver b p
    go) := by
  unfold Block.deliver
  dsimp only
  exact Stays.ite (Stays.of_kept (by simp)) ((Stays.of_kept (by split <;> simp)).trans (h _))

theorem Block.deliverTc2_kept (b : Block) (p : Packet) (go : Block → Block) (h_go : ∀ z, Kept z (go z)) :
    Kept b (Block.deliverTc2 b p go) := by
  unfold Block.deliverTc2
  simp [h_go]

@[simp] theorem Block.deliverTc2_kept_iff (a0 b : Block) (p : Packet) (go : Block → Block) (h_go : ∀ z, Kept z (go z)) :
    Kept a0 (Block.deliverTc2 b p go) = Kept a0 b := Kept.cong (Block.deliverTc2_kept b p go h_go)

theorem Block.collect_kept (b : Block) (p : Packet) (kind : Nat) : Kept b (Block.collect b p kind) := by
  unfold Block.collect
  simp

@[simp] theorem Block.collect_kept_iff (a0 b : Block) (p : Packet) (kind : Nat) :
    Kept a0 (Block.collect b p kind) = Kept a0 b := Kept.cong (Block.collect_kept b p kind)

theorem Block.regReadPacket_kept (b : Block) (p : Packet) (d : Darn) : Kept b (Block.regReadPacket b p d) := by
  unfold Block.regReadPacket
  simp

@[simp] theorem Block.regReadPacket_kept_iff (a0 b : Block) (p : Packet) (d : Darn) :
    Kept a0 (Block.regReadPacket b p d) = Kept a0 b := Kept.cong (Block.regReadPacket_kept b p d)

theorem Block.regWritePacket_stays (b : Block) (p : Packet) (d : Darn) : Stays b (Block.regWritePacket b p d) := by
  unfold Block.regWritePacket
  dsimp only
  exact Stays.ite (Stays.of_kept (by simp)) (Stays.ite (Stays.of_kept (by simp))
    ((Block.remoteWrite_stays b (fld p.hdr 61 46) (word (ofBytes (slice (slotsBytes p.data) 0 8))) d).trans (Stays.of_kept
        (by simp))))

theorem Block.reservedPacket_kept (b : Block) (p : Packet) : Kept b (Block.reservedPacket b p) := by
  unfold Block.reservedPacket
  simp

@[simp] theorem Block.reservedPacket_kept_iff (a0 b : Block) (p : Packet) :
    Kept a0 (Block.reservedPacket b p) = Kept a0 b := Kept.cong (Block.reservedPacket_kept b p)

end Sys2Proof.Machine
end

