-- ==== Sys2Proof/Laws/KeptCommands.lean ====
section
/-!
SUPPORT. The operations that only commands use: each operation keeps the variant code and the key root.
-/

namespace Sys2Proof.Machine

theorem Block.mildomRead_kept (b : Block) (reg : Nat) (crc : Nat) (d : Darn) : Kept b (Block.mildomRead b reg crc d) := by
  unfold Block.mildomRead
  simp

@[simp] theorem Block.mildomRead_kept_iff (a0 b : Block) (reg : Nat) (crc : Nat) (d : Darn) :
    Kept a0 (Block.mildomRead b reg crc d) = Kept a0 b := Kept.cong (Block.mildomRead_kept b reg crc d)

theorem Block.mildomWrite_stays (b : Block) (reg : Nat) (v : Word) (d : Darn) (crc : Nat) : Stays b (Block.mildomWrite b reg v d
    crc) := by
  exact Block.mildom_stays _ _ _ _ fun z => (Block.regWrite_stays z true (reg % 65536) v d).trans (Stays.of_kept (by simp))

theorem Block.jtagReg_stays (b : Block) (write : Bool) (reg : Nat) (v : Word) (d : Darn) : Stays b (Block.jtagReg b write reg v
    d) := by
  unfold Block.jtagReg
  exact Stays.ite (Stays.of_kept (by simp)) (Stays.ite ((Block.remoteWrite_stays b reg v d).trans (Stays.of_kept (by simp)))
    (Stays.of_kept (by simp)))

theorem Block.jtagFuse_stays (b : Block) (code : Nat) : Stays b (Block.jtagFuse b code) := by
  unfold Block.jtagFuse
  exact Stays.ite (Stays.of_kept (by simp)) ((Stays.of_kept (by simp)).trans (Block.fuseWrite_stays _ _ _))

theorem Block.admitOdd_kept (n : Nat) (b : Block) (s : Nat) : Kept b (Block.admitOdd n b s) := by
  induction n generalizing b with
  | zero => unfold Block.admitOdd; simp
  | succ n ih =>
    unfold Block.admitOdd
    (repeat' split) <;> simp [Kept.cong (ih _)]

@[simp] theorem Block.admitOdd_kept_iff (a0 : Block) (n : Nat) (b : Block) (s : Nat) :
    Kept a0 (Block.admitOdd n b s) = Kept a0 b := Kept.cong (Block.admitOdd_kept n b s)

theorem Block.descriptor_kept (b : Block) (op : Nat) (s : Nat) : Kept b (Block.descriptor b op s) := by
  unfold Block.descriptor
  dsimp only; (repeat' split) <;> simp

@[simp] theorem Block.descriptor_kept_iff (a0 b : Block) (op : Nat) (s : Nat) :
    Kept a0 (Block.descriptor b op s) = Kept a0 b := Kept.cong (Block.descriptor_kept b op s)

theorem Block.tickEnds_kept (b : Block) (s : Nat) : Kept b (Block.tickEnds b s) := by
  unfold Block.tickEnds
  split
  · simp
  · rename_i c h
    simp [Block.tickHoldEnd_kept_iff b b c s h]

@[simp] theorem Block.tickEnds_kept_iff (a0 b : Block) (s : Nat) :
    Kept a0 (Block.tickEnds b s) = Kept a0 b := Kept.cong (Block.tickEnds_kept b s)

theorem Block.completion_kept (b : Block) (id : Nat) : Kept b (Block.completion b id) := by
  unfold Block.completion
  (repeat' split) <;> simp

@[simp] theorem Block.completion_kept_iff (a0 b : Block) (id : Nat) :
    Kept a0 (Block.completion b id) = Kept a0 b := Kept.cong (Block.completion_kept b id)

theorem Block.expire_kept (b : Block) (id : Nat) : Kept b (Block.expire b id) := by
  unfold Block.expire
  (repeat' split) <;> simp

@[simp] theorem Block.expire_kept_iff (a0 b : Block) (id : Nat) :
    Kept a0 (Block.expire b id) = Kept a0 b := Kept.cong (Block.expire_kept b id)

theorem Block.fsyncAgain_kept (b : Block) (peer : Nat) (cls : Nat) : Kept b (Block.fsyncAgain b peer cls) := by
  unfold Block.fsyncAgain
  (repeat' split) <;> simp

@[simp] theorem Block.fsyncAgain_kept_iff (a0 b : Block) (peer : Nat) (cls : Nat) :
    Kept a0 (Block.fsyncAgain b peer cls) = Kept a0 b := Kept.cong (Block.fsyncAgain_kept b peer cls)

theorem Block.tagFreed_kept (b : Block) (tag : Nat) : Kept b (Block.tagFreed b tag) := by
  unfold Block.tagFreed
  simp

@[simp] theorem Block.tagFreed_kept_iff (a0 b : Block) (tag : Nat) :
    Kept a0 (Block.tagFreed b tag) = Kept a0 b := Kept.cong (Block.tagFreed_kept b tag)

theorem Block.tc2_kept (b : Block) (p : Packet) (op : Nat) (go : Block → Block) (h_go : ∀ z, Kept z (go z)) :
    Kept b (Block.tc2 b p op go) := by
  unfold Block.tc2
  simp [h_go]

@[simp] theorem Block.tc2_kept_iff (a0 b : Block) (p : Packet) (op : Nat) (go : Block → Block) (h_go : ∀ z, Kept z (go
    z)) :
    Kept a0 (Block.tc2 b p op go) = Kept a0 b := Kept.cong (Block.tc2_kept b p op go h_go)

theorem Block.mgmtPkt_kept (b : Block) (p : Packet) (op : Nat) (go : Block → Block) (h_go : ∀ z, Kept z (go z)) :
    Kept b (Block.mgmtPkt b p op go) := by
  unfold Block.mgmtPkt
  simp [h_go]

@[simp] theorem Block.mgmtPkt_kept_iff (a0 b : Block) (p : Packet) (op : Nat) (go : Block → Block) (h_go : ∀ z, Kept z
    (go z)) :
    Kept a0 (Block.mgmtPkt b p op go) = Kept a0 b := Kept.cong (Block.mgmtPkt_kept b p op go h_go)

theorem Block.mgmtPkt_stays (b : Block) (p : Packet) (op : Nat) (go : Block → Block) (h : ∀ z, Stays z (go z)) : Stays b
    (Block.mgmtPkt b p op go) := by
  unfold Block.mgmtPkt
  exact Stays.ite (Block.deliver_stays _ _ _ h) (Stays.of_kept (by simp))

theorem Block.respPacket_kept (b : Block) (p : Packet) : Kept b (Block.respPacket b p) := by
  unfold Block.respPacket
  (repeat' split) <;> simp

@[simp] theorem Block.respPacket_kept_iff (a0 b : Block) (p : Packet) :
    Kept a0 (Block.respPacket b p) = Kept a0 b := Kept.cong (Block.respPacket_kept b p)

theorem Block.receiptMcPacket_kept (b : Block) (p : Packet) : Kept b (Block.receiptMcPacket b p) := by
  unfold Block.receiptMcPacket
  simp

@[simp] theorem Block.receiptMcPacket_kept_iff (a0 b : Block) (p : Packet) :
    Kept a0 (Block.receiptMcPacket b p) = Kept a0 b := Kept.cong (Block.receiptMcPacket_kept b p)

theorem Block.tornPacket_kept (b : Block) (p : Packet) : Kept b (Block.tornPacket b p) := by
  unfold Block.tornPacket
  simp

@[simp] theorem Block.tornPacket_kept_iff (a0 b : Block) (p : Packet) :
    Kept a0 (Block.tornPacket b p) = Kept a0 b := Kept.cong (Block.tornPacket_kept b p)

end Sys2Proof.Machine
end

