-- ==== Sys2Proof/Laws/State.lean ====
section
/-!
SUPPORT. What an update of one part of the block leaves as it was: one lemma per part, true by unfolding.
-/

namespace Sys2Proof.Machine

/-- A fold over operations that leave a part of the block leaves it. -/
theorem foldl_field {α β : Type} (part : Block → α) (l : List β) (f : Block → β → Block) (h : ∀ b x, part (f b x) = part b)
    (b : Block) : part (l.foldl f b) = part b := by
  induction l generalizing b with
  | nil => rfl
  | cons x l ih => exact (ih _).trans (h b x)

/-! `poke` changes `regs` alone. -/

@[simp] theorem Block.poke_segmap (b : Block) (w : Nat) (v : Word) : (b.poke w v).segmap = b.segmap := rfl
@[simp] theorem Block.poke_segBad (b : Block) (w : Nat) (v : Word) : (b.poke w v).segBad = b.segBad := rfl
@[simp] theorem Block.poke_keyRoot (b : Block) (w : Nat) (v : Word) : (b.poke w v).keyRoot = b.keyRoot := rfl
@[simp] theorem Block.poke_ctrs (b : Block) (w : Nat) (v : Word) : (b.poke w v).ctrs = b.ctrs := rfl
@[simp] theorem Block.poke_ctrBad (b : Block) (w : Nat) (v : Word) : (b.poke w v).ctrBad = b.ctrBad := rfl
@[simp] theorem Block.poke_mirrorDue (b : Block) (w : Nat) (v : Word) : (b.poke w v).mirrorDue = b.mirrorDue := rfl
@[simp] theorem Block.poke_groups (b : Block) (w : Nat) (v : Word) : (b.poke w v).groups = b.groups := rfl
@[simp] theorem Block.poke_groupBad (b : Block) (w : Nat) (v : Word) : (b.poke w v).groupBad = b.groupBad := rfl
@[simp] theorem Block.poke_segFence (b : Block) (w : Nat) (v : Word) : (b.poke w v).segFence = b.segFence := rfl
@[simp] theorem Block.poke_ctrFence (b : Block) (w : Nat) (v : Word) : (b.poke w v).ctrFence = b.ctrFence := rfl
@[simp] theorem Block.poke_time (b : Block) (w : Nat) (v : Word) : (b.poke w v).time = b.time := rfl
@[simp] theorem Block.poke_host (b : Block) (w : Nat) (v : Word) : (b.poke w v).host = b.host := rfl
@[simp] theorem Block.poke_req (b : Block) (w : Nat) (v : Word) : (b.poke w v).req = b.req := rfl
@[simp] theorem Block.poke_dest (b : Block) (w : Nat) (v : Word) : (b.poke w v).dest = b.dest := rfl
@[simp] theorem Block.poke_mangle (b : Block) (w : Nat) (v : Word) : (b.poke w v).mangle = b.mangle := rfl
@[simp] theorem Block.poke_fold (b : Block) (w : Nat) (v : Word) : (b.poke w v).fold = b.fold := rfl
@[simp] theorem Block.poke_fwd (b : Block) (w : Nat) (v : Word) : (b.poke w v).fwd = b.fwd := rfl
@[simp] theorem Block.poke_ports (b : Block) (w : Nat) (v : Word) : (b.poke w v).ports = b.ports := rfl
@[simp] theorem Block.poke_lanes (b : Block) (w : Nat) (v : Word) : (b.poke w v).lanes = b.lanes := rfl
@[simp] theorem Block.poke_boot (b : Block) (w : Nat) (v : Word) : (b.poke w v).boot = b.boot := rfl
@[simp] theorem Block.poke_rst (b : Block) (w : Nat) (v : Word) : (b.poke w v).rst = b.rst := rfl
@[simp] theorem Block.poke_obs (b : Block) (w : Nat) (v : Word) : (b.poke w v).obs = b.obs := rfl
@[simp] theorem Block.poke_rp (b : Block) (w : Nat) (v : Word) : (b.poke w v).rp = b.rp := rfl
@[simp] theorem Block.poke_free (b : Block) (w : Nat) (v : Word) : (b.poke w v).free = b.free := rfl

/-! `setRf` changes `regs` alone. -/

@[simp] theorem Block.setRf_segmap (b : Block) (w : Nat) (hi : Nat) (lo : Nat) (x : Nat) : (b.setRf w hi lo x).segmap = b.segmap := rfl
@[simp] theorem Block.setRf_segBad (b : Block) (w : Nat) (hi : Nat) (lo : Nat) (x : Nat) : (b.setRf w hi lo x).segBad = b.segBad := rfl
@[simp] theorem Block.setRf_keyRoot (b : Block) (w : Nat) (hi : Nat) (lo : Nat) (x : Nat) : (b.setRf w hi lo x).keyRoot = b.keyRoot := rfl
@[simp] theorem Block.setRf_ctrs (b : Block) (w : Nat) (hi : Nat) (lo : Nat) (x : Nat) : (b.setRf w hi lo x).ctrs = b.ctrs := rfl
@[simp] theorem Block.setRf_ctrBad (b : Block) (w : Nat) (hi : Nat) (lo : Nat) (x : Nat) : (b.setRf w hi lo x).ctrBad = b.ctrBad := rfl
@[simp] theorem Block.setRf_mirrorDue (b : Block) (w : Nat) (hi : Nat) (lo : Nat) (x : Nat) : (b.setRf w hi lo x).mirrorDue = b.mirrorDue := rfl
@[simp] theorem Block.setRf_groups (b : Block) (w : Nat) (hi : Nat) (lo : Nat) (x : Nat) : (b.setRf w hi lo x).groups = b.groups := rfl
@[simp] theorem Block.setRf_groupBad (b : Block) (w : Nat) (hi : Nat) (lo : Nat) (x : Nat) : (b.setRf w hi lo x).groupBad = b.groupBad := rfl
@[simp] theorem Block.setRf_segFence (b : Block) (w : Nat) (hi : Nat) (lo : Nat) (x : Nat) : (b.setRf w hi lo x).segFence = b.segFence := rfl
@[simp] theorem Block.setRf_ctrFence (b : Block) (w : Nat) (hi : Nat) (lo : Nat) (x : Nat) : (b.setRf w hi lo x).ctrFence = b.ctrFence := rfl
@[simp] theorem Block.setRf_time (b : Block) (w : Nat) (hi : Nat) (lo : Nat) (x : Nat) : (b.setRf w hi lo x).time = b.time := rfl
@[simp] theorem Block.setRf_host (b : Block) (w : Nat) (hi : Nat) (lo : Nat) (x : Nat) : (b.setRf w hi lo x).host = b.host := rfl
@[simp] theorem Block.setRf_req (b : Block) (w : Nat) (hi : Nat) (lo : Nat) (x : Nat) : (b.setRf w hi lo x).req = b.req := rfl
@[simp] theorem Block.setRf_dest (b : Block) (w : Nat) (hi : Nat) (lo : Nat) (x : Nat) : (b.setRf w hi lo x).dest = b.dest := rfl
@[simp] theorem Block.setRf_mangle (b : Block) (w : Nat) (hi : Nat) (lo : Nat) (x : Nat) : (b.setRf w hi lo x).mangle = b.mangle := rfl
@[simp] theorem Block.setRf_fold (b : Block) (w : Nat) (hi : Nat) (lo : Nat) (x : Nat) : (b.setRf w hi lo x).fold = b.fold := rfl
@[simp] theorem Block.setRf_fwd (b : Block) (w : Nat) (hi : Nat) (lo : Nat) (x : Nat) : (b.setRf w hi lo x).fwd = b.fwd := rfl
@[simp] theorem Block.setRf_ports (b : Block) (w : Nat) (hi : Nat) (lo : Nat) (x : Nat) : (b.setRf w hi lo x).ports = b.ports := rfl
@[simp] theorem Block.setRf_lanes (b : Block) (w : Nat) (hi : Nat) (lo : Nat) (x : Nat) : (b.setRf w hi lo x).lanes = b.lanes := rfl
@[simp] theorem Block.setRf_boot (b : Block) (w : Nat) (hi : Nat) (lo : Nat) (x : Nat) : (b.setRf w hi lo x).boot = b.boot := rfl
@[simp] theorem Block.setRf_rst (b : Block) (w : Nat) (hi : Nat) (lo : Nat) (x : Nat) : (b.setRf w hi lo x).rst = b.rst := rfl
@[simp] theorem Block.setRf_obs (b : Block) (w : Nat) (hi : Nat) (lo : Nat) (x : Nat) : (b.setRf w hi lo x).obs = b.obs := rfl
@[simp] theorem Block.setRf_rp (b : Block) (w : Nat) (hi : Nat) (lo : Nat) (x : Nat) : (b.setRf w hi lo x).rp = b.rp := rfl
@[simp] theorem Block.setRf_free (b : Block) (w : Nat) (hi : Nat) (lo : Nat) (x : Nat) : (b.setRf w hi lo x).free = b.free := rfl

/-! `ivAdd` changes `obs` alone. -/

@[simp] theorem Block.ivAdd_regs (b : Block) (key : Nat) (n : Nat) : (b.ivAdd key n).regs = b.regs := rfl
@[simp] theorem Block.ivAdd_segmap (b : Block) (key : Nat) (n : Nat) : (b.ivAdd key n).segmap = b.segmap := rfl
@[simp] theorem Block.ivAdd_segBad (b : Block) (key : Nat) (n : Nat) : (b.ivAdd key n).segBad = b.segBad := rfl
@[simp] theorem Block.ivAdd_keyRoot (b : Block) (key : Nat) (n : Nat) : (b.ivAdd key n).keyRoot = b.keyRoot := rfl
@[simp] theorem Block.ivAdd_ctrs (b : Block) (key : Nat) (n : Nat) : (b.ivAdd key n).ctrs = b.ctrs := rfl
@[simp] theorem Block.ivAdd_ctrBad (b : Block) (key : Nat) (n : Nat) : (b.ivAdd key n).ctrBad = b.ctrBad := rfl
@[simp] theorem Block.ivAdd_mirrorDue (b : Block) (key : Nat) (n : Nat) : (b.ivAdd key n).mirrorDue = b.mirrorDue := rfl
@[simp] theorem Block.ivAdd_groups (b : Block) (key : Nat) (n : Nat) : (b.ivAdd key n).groups = b.groups := rfl
@[simp] theorem Block.ivAdd_groupBad (b : Block) (key : Nat) (n : Nat) : (b.ivAdd key n).groupBad = b.groupBad := rfl
@[simp] theorem Block.ivAdd_segFence (b : Block) (key : Nat) (n : Nat) : (b.ivAdd key n).segFence = b.segFence := rfl
@[simp] theorem Block.ivAdd_ctrFence (b : Block) (key : Nat) (n : Nat) : (b.ivAdd key n).ctrFence = b.ctrFence := rfl
@[simp] theorem Block.ivAdd_time (b : Block) (key : Nat) (n : Nat) : (b.ivAdd key n).time = b.time := rfl
@[simp] theorem Block.ivAdd_host (b : Block) (key : Nat) (n : Nat) : (b.ivAdd key n).host = b.host := rfl
@[simp] theorem Block.ivAdd_req (b : Block) (key : Nat) (n : Nat) : (b.ivAdd key n).req = b.req := rfl
@[simp] theorem Block.ivAdd_dest (b : Block) (key : Nat) (n : Nat) : (b.ivAdd key n).dest = b.dest := rfl
@[simp] theorem Block.ivAdd_mangle (b : Block) (key : Nat) (n : Nat) : (b.ivAdd key n).mangle = b.mangle := rfl
@[simp] theorem Block.ivAdd_fold (b : Block) (key : Nat) (n : Nat) : (b.ivAdd key n).fold = b.fold := rfl
@[simp] theorem Block.ivAdd_fwd (b : Block) (key : Nat) (n : Nat) : (b.ivAdd key n).fwd = b.fwd := rfl
@[simp] theorem Block.ivAdd_ports (b : Block) (key : Nat) (n : Nat) : (b.ivAdd key n).ports = b.ports := rfl
@[simp] theorem Block.ivAdd_lanes (b : Block) (key : Nat) (n : Nat) : (b.ivAdd key n).lanes = b.lanes := rfl
@[simp] theorem Block.ivAdd_boot (b : Block) (key : Nat) (n : Nat) : (b.ivAdd key n).boot = b.boot := rfl
@[simp] theorem Block.ivAdd_rst (b : Block) (key : Nat) (n : Nat) : (b.ivAdd key n).rst = b.rst := rfl
@[simp] theorem Block.ivAdd_rp (b : Block) (key : Nat) (n : Nat) : (b.ivAdd key n).rp = b.rp := rfl
@[simp] theorem Block.ivAdd_free (b : Block) (key : Nat) (n : Nat) : (b.ivAdd key n).free = b.free := rfl

/-! `setPort` changes `ports` alone. -/

@[simp] theorem Block.setPort_regs (b : Block) (p : Nat) (f : PortSt → PortSt) : (b.setPort p f).regs = b.regs := rfl
@[simp] theorem Block.setPort_segmap (b : Block) (p : Nat) (f : PortSt → PortSt) : (b.setPort p f).segmap = b.segmap := rfl
@[simp] theorem Block.setPort_segBad (b : Block) (p : Nat) (f : PortSt → PortSt) : (b.setPort p f).segBad = b.segBad := rfl
@[simp] theorem Block.setPort_keyRoot (b : Block) (p : Nat) (f : PortSt → PortSt) : (b.setPort p f).keyRoot = b.keyRoot := rfl
@[simp] theorem Block.setPort_ctrs (b : Block) (p : Nat) (f : PortSt → PortSt) : (b.setPort p f).ctrs = b.ctrs := rfl
@[simp] theorem Block.setPort_ctrBad (b : Block) (p : Nat) (f : PortSt → PortSt) : (b.setPort p f).ctrBad = b.ctrBad := rfl
@[simp] theorem Block.setPort_mirrorDue (b : Block) (p : Nat) (f : PortSt → PortSt) : (b.setPort p f).mirrorDue = b.mirrorDue := rfl
@[simp] theorem Block.setPort_groups (b : Block) (p : Nat) (f : PortSt → PortSt) : (b.setPort p f).groups = b.groups := rfl
@[simp] theorem Block.setPort_groupBad (b : Block) (p : Nat) (f : PortSt → PortSt) : (b.setPort p f).groupBad = b.groupBad := rfl
@[simp] theorem Block.setPort_segFence (b : Block) (p : Nat) (f : PortSt → PortSt) : (b.setPort p f).segFence = b.segFence := rfl
@[simp] theorem Block.setPort_ctrFence (b : Block) (p : Nat) (f : PortSt → PortSt) : (b.setPort p f).ctrFence = b.ctrFence := rfl
@[simp] theorem Block.setPort_time (b : Block) (p : Nat) (f : PortSt → PortSt) : (b.setPort p f).time = b.time := rfl
@[simp] theorem Block.setPort_host (b : Block) (p : Nat) (f : PortSt → PortSt) : (b.setPort p f).host = b.host := rfl
@[simp] theorem Block.setPort_req (b : Block) (p : Nat) (f : PortSt → PortSt) : (b.setPort p f).req = b.req := rfl
@[simp] theorem Block.setPort_dest (b : Block) (p : Nat) (f : PortSt → PortSt) : (b.setPort p f).dest = b.dest := rfl
@[simp] theorem Block.setPort_mangle (b : Block) (p : Nat) (f : PortSt → PortSt) : (b.setPort p f).mangle = b.mangle := rfl
@[simp] theorem Block.setPort_fold (b : Block) (p : Nat) (f : PortSt → PortSt) : (b.setPort p f).fold = b.fold := rfl
@[simp] theorem Block.setPort_fwd (b : Block) (p : Nat) (f : PortSt → PortSt) : (b.setPort p f).fwd = b.fwd := rfl
@[simp] theorem Block.setPort_lanes (b : Block) (p : Nat) (f : PortSt → PortSt) : (b.setPort p f).lanes = b.lanes := rfl
@[simp] theorem Block.setPort_boot (b : Block) (p : Nat) (f : PortSt → PortSt) : (b.setPort p f).boot = b.boot := rfl
@[simp] theorem Block.setPort_rst (b : Block) (p : Nat) (f : PortSt → PortSt) : (b.setPort p f).rst = b.rst := rfl
@[simp] theorem Block.setPort_obs (b : Block) (p : Nat) (f : PortSt → PortSt) : (b.setPort p f).obs = b.obs := rfl
@[simp] theorem Block.setPort_rp (b : Block) (p : Nat) (f : PortSt → PortSt) : (b.setPort p f).rp = b.rp := rfl
@[simp] theorem Block.setPort_free (b : Block) (p : Nat) (f : PortSt → PortSt) : (b.setPort p f).free = b.free := rfl

/-! `setLane` changes `lanes` alone. -/

@[simp] theorem Block.setLane_regs (b : Block) (p : Nat) (f : LaneSt → LaneSt) : (b.setLane p f).regs = b.regs := rfl
@[simp] theorem Block.setLane_segmap (b : Block) (p : Nat) (f : LaneSt → LaneSt) : (b.setLane p f).segmap = b.segmap := rfl
@[simp] theorem Block.setLane_segBad (b : Block) (p : Nat) (f : LaneSt → LaneSt) : (b.setLane p f).segBad = b.segBad := rfl
@[simp] theorem Block.setLane_keyRoot (b : Block) (p : Nat) (f : LaneSt → LaneSt) : (b.setLane p f).keyRoot = b.keyRoot := rfl
@[simp] theorem Block.setLane_ctrs (b : Block) (p : Nat) (f : LaneSt → LaneSt) : (b.setLane p f).ctrs = b.ctrs := rfl
@[simp] theorem Block.setLane_ctrBad (b : Block) (p : Nat) (f : LaneSt → LaneSt) : (b.setLane p f).ctrBad = b.ctrBad := rfl
@[simp] theorem Block.setLane_mirrorDue (b : Block) (p : Nat) (f : LaneSt → LaneSt) : (b.setLane p f).mirrorDue = b.mirrorDue := rfl
@[simp] theorem Block.setLane_groups (b : Block) (p : Nat) (f : LaneSt → LaneSt) : (b.setLane p f).groups = b.groups := rfl
@[simp] theorem Block.setLane_groupBad (b : Block) (p : Nat) (f : LaneSt → LaneSt) : (b.setLane p f).groupBad = b.groupBad := rfl
@[simp] theorem Block.setLane_segFence (b : Block) (p : Nat) (f : LaneSt → LaneSt) : (b.setLane p f).segFence = b.segFence := rfl
@[simp] theorem Block.setLane_ctrFence (b : Block) (p : Nat) (f : LaneSt → LaneSt) : (b.setLane p f).ctrFence = b.ctrFence := rfl
@[simp] theorem Block.setLane_time (b : Block) (p : Nat) (f : LaneSt → LaneSt) : (b.setLane p f).time = b.time := rfl
@[simp] theorem Block.setLane_host (b : Block) (p : Nat) (f : LaneSt → LaneSt) : (b.setLane p f).host = b.host := rfl
@[simp] theorem Block.setLane_req (b : Block) (p : Nat) (f : LaneSt → LaneSt) : (b.setLane p f).req = b.req := rfl
@[simp] theorem Block.setLane_dest (b : Block) (p : Nat) (f : LaneSt → LaneSt) : (b.setLane p f).dest = b.dest := rfl
@[simp] theorem Block.setLane_mangle (b : Block) (p : Nat) (f : LaneSt → LaneSt) : (b.setLane p f).mangle = b.mangle := rfl
@[simp] theorem Block.setLane_fold (b : Block) (p : Nat) (f : LaneSt → LaneSt) : (b.setLane p f).fold = b.fold := rfl
@[simp] theorem Block.setLane_fwd (b : Block) (p : Nat) (f : LaneSt → LaneSt) : (b.setLane p f).fwd = b.fwd := rfl
@[simp] theorem Block.setLane_ports (b : Block) (p : Nat) (f : LaneSt → LaneSt) : (b.setLane p f).ports = b.ports := rfl
@[simp] theorem Block.setLane_boot (b : Block) (p : Nat) (f : LaneSt → LaneSt) : (b.setLane p f).boot = b.boot := rfl
@[simp] theorem Block.setLane_rst (b : Block) (p : Nat) (f : LaneSt → LaneSt) : (b.setLane p f).rst = b.rst := rfl
@[simp] theorem Block.setLane_obs (b : Block) (p : Nat) (f : LaneSt → LaneSt) : (b.setLane p f).obs = b.obs := rfl
@[simp] theorem Block.setLane_rp (b : Block) (p : Nat) (f : LaneSt → LaneSt) : (b.setLane p f).rp = b.rp := rfl
@[simp] theorem Block.setLane_free (b : Block) (p : Nat) (f : LaneSt → LaneSt) : (b.setLane p f).free = b.free := rfl

/-! `setStream` changes `req` alone. -/

@[simp] theorem Block.setStream_regs (b : Block) (s : Nat) (f : Stream → Stream) : (b.setStream s f).regs = b.regs := rfl
@[simp] theorem Block.setStream_segmap (b : Block) (s : Nat) (f : Stream → Stream) : (b.setStream s f).segmap = b.segmap := rfl
@[simp] theorem Block.setStream_segBad (b : Block) (s : Nat) (f : Stream → Stream) : (b.setStream s f).segBad = b.segBad := rfl
@[simp] theorem Block.setStream_keyRoot (b : Block) (s : Nat) (f : Stream → Stream) : (b.setStream s f).keyRoot = b.keyRoot := rfl
@[simp] theorem Block.setStream_ctrs (b : Block) (s : Nat) (f : Stream → Stream) : (b.setStream s f).ctrs = b.ctrs := rfl
@[simp] theorem Block.setStream_ctrBad (b : Block) (s : Nat) (f : Stream → Stream) : (b.setStream s f).ctrBad = b.ctrBad := rfl
@[simp] theorem Block.setStream_mirrorDue (b : Block) (s : Nat) (f : Stream → Stream) : (b.setStream s f).mirrorDue = b.mirrorDue := rfl
@[simp] theorem Block.setStream_groups (b : Block) (s : Nat) (f : Stream → Stream) : (b.setStream s f).groups = b.groups := rfl
@[simp] theorem Block.setStream_groupBad (b : Block) (s : Nat) (f : Stream → Stream) : (b.setStream s f).groupBad = b.groupBad := rfl
@[simp] theorem Block.setStream_segFence (b : Block) (s : Nat) (f : Stream → Stream) : (b.setStream s f).segFence = b.segFence := rfl
@[simp] theorem Block.setStream_ctrFence (b : Block) (s : Nat) (f : Stream → Stream) : (b.setStream s f).ctrFence = b.ctrFence := rfl
@[simp] theorem Block.setStream_time (b : Block) (s : Nat) (f : Stream → Stream) : (b.setStream s f).time = b.time := rfl
@[simp] theorem Block.setStream_host (b : Block) (s : Nat) (f : Stream → Stream) : (b.setStream s f).host = b.host := rfl
@[simp] theorem Block.setStream_dest (b : Block) (s : Nat) (f : Stream → Stream) : (b.setStream s f).dest = b.dest := rfl
@[simp] theorem Block.setStream_mangle (b : Block) (s : Nat) (f : Stream → Stream) : (b.setStream s f).mangle = b.mangle := rfl
@[simp] theorem Block.setStream_fold (b : Block) (s : Nat) (f : Stream → Stream) : (b.setStream s f).fold = b.fold := rfl
@[simp] theorem Block.setStream_fwd (b : Block) (s : Nat) (f : Stream → Stream) : (b.setStream s f).fwd = b.fwd := rfl
@[simp] theorem Block.setStream_ports (b : Block) (s : Nat) (f : Stream → Stream) : (b.setStream s f).ports = b.ports := rfl
@[simp] theorem Block.setStream_lanes (b : Block) (s : Nat) (f : Stream → Stream) : (b.setStream s f).lanes = b.lanes := rfl
@[simp] theorem Block.setStream_boot (b : Block) (s : Nat) (f : Stream → Stream) : (b.setStream s f).boot = b.boot := rfl
@[simp] theorem Block.setStream_rst (b : Block) (s : Nat) (f : Stream → Stream) : (b.setStream s f).rst = b.rst := rfl
@[simp] theorem Block.setStream_obs (b : Block) (s : Nat) (f : Stream → Stream) : (b.setStream s f).obs = b.obs := rfl
@[simp] theorem Block.setStream_rp (b : Block) (s : Nat) (f : Stream → Stream) : (b.setStream s f).rp = b.rp := rfl
@[simp] theorem Block.setStream_free (b : Block) (s : Nat) (f : Stream → Stream) : (b.setStream s f).free = b.free := rfl

/-! `setCmd` changes `req` alone. -/

@[simp] theorem Block.setCmd_regs (b : Block) (id : Nat) (f : Cmd → Cmd) : (b.setCmd id f).regs = b.regs := rfl
@[simp] theorem Block.setCmd_segmap (b : Block) (id : Nat) (f : Cmd → Cmd) : (b.setCmd id f).segmap = b.segmap := rfl
@[simp] theorem Block.setCmd_segBad (b : Block) (id : Nat) (f : Cmd → Cmd) : (b.setCmd id f).segBad = b.segBad := rfl
@[simp] theorem Block.setCmd_keyRoot (b : Block) (id : Nat) (f : Cmd → Cmd) : (b.setCmd id f).keyRoot = b.keyRoot := rfl
@[simp] theorem Block.setCmd_ctrs (b : Block) (id : Nat) (f : Cmd → Cmd) : (b.setCmd id f).ctrs = b.ctrs := rfl
@[simp] theorem Block.setCmd_ctrBad (b : Block) (id : Nat) (f : Cmd → Cmd) : (b.setCmd id f).ctrBad = b.ctrBad := rfl
@[simp] theorem Block.setCmd_mirrorDue (b : Block) (id : Nat) (f : Cmd → Cmd) : (b.setCmd id f).mirrorDue = b.mirrorDue := rfl
@[simp] theorem Block.setCmd_groups (b : Block) (id : Nat) (f : Cmd → Cmd) : (b.setCmd id f).groups = b.groups := rfl
@[simp] theorem Block.setCmd_groupBad (b : Block) (id : Nat) (f : Cmd → Cmd) : (b.setCmd id f).groupBad = b.groupBad := rfl
@[simp] theorem Block.setCmd_segFence (b : Block) (id : Nat) (f : Cmd → Cmd) : (b.setCmd id f).segFence = b.segFence := rfl
@[simp] theorem Block.setCmd_ctrFence (b : Block) (id : Nat) (f : Cmd → Cmd) : (b.setCmd id f).ctrFence = b.ctrFence := rfl
@[simp] theorem Block.setCmd_time (b : Block) (id : Nat) (f : Cmd → Cmd) : (b.setCmd id f).time = b.time := rfl
@[simp] theorem Block.setCmd_host (b : Block) (id : Nat) (f : Cmd → Cmd) : (b.setCmd id f).host = b.host := rfl
@[simp] theorem Block.setCmd_dest (b : Block) (id : Nat) (f : Cmd → Cmd) : (b.setCmd id f).dest = b.dest := rfl
@[simp] theorem Block.setCmd_mangle (b : Block) (id : Nat) (f : Cmd → Cmd) : (b.setCmd id f).mangle = b.mangle := rfl
@[simp] theorem Block.setCmd_fold (b : Block) (id : Nat) (f : Cmd → Cmd) : (b.setCmd id f).fold = b.fold := rfl
@[simp] theorem Block.setCmd_fwd (b : Block) (id : Nat) (f : Cmd → Cmd) : (b.setCmd id f).fwd = b.fwd := rfl
@[simp] theorem Block.setCmd_ports (b : Block) (id : Nat) (f : Cmd → Cmd) : (b.setCmd id f).ports = b.ports := rfl
@[simp] theorem Block.setCmd_lanes (b : Block) (id : Nat) (f : Cmd → Cmd) : (b.setCmd id f).lanes = b.lanes := rfl
@[simp] theorem Block.setCmd_boot (b : Block) (id : Nat) (f : Cmd → Cmd) : (b.setCmd id f).boot = b.boot := rfl
@[simp] theorem Block.setCmd_rst (b : Block) (id : Nat) (f : Cmd → Cmd) : (b.setCmd id f).rst = b.rst := rfl
@[simp] theorem Block.setCmd_obs (b : Block) (id : Nat) (f : Cmd → Cmd) : (b.setCmd id f).obs = b.obs := rfl
@[simp] theorem Block.setCmd_rp (b : Block) (id : Nat) (f : Cmd → Cmd) : (b.setCmd id f).rp = b.rp := rfl
@[simp] theorem Block.setCmd_free (b : Block) (id : Nat) (f : Cmd → Cmd) : (b.setCmd id f).free = b.free := rfl

/-! `setFlow` changes `req` alone. -/

@[simp] theorem Block.setFlow_regs (b : Block) (f : Flow) : (b.setFlow f).regs = b.regs := rfl
@[simp] theorem Block.setFlow_segmap (b : Block) (f : Flow) : (b.setFlow f).segmap = b.segmap := rfl
@[simp] theorem Block.setFlow_segBad (b : Block) (f : Flow) : (b.setFlow f).segBad = b.segBad := rfl
@[simp] theorem Block.setFlow_keyRoot (b : Block) (f : Flow) : (b.setFlow f).keyRoot = b.keyRoot := rfl
@[simp] theorem Block.setFlow_ctrs (b : Block) (f : Flow) : (b.setFlow f).ctrs = b.ctrs := rfl
@[simp] theorem Block.setFlow_ctrBad (b : Block) (f : Flow) : (b.setFlow f).ctrBad = b.ctrBad := rfl
@[simp] theorem Block.setFlow_mirrorDue (b : Block) (f : Flow) : (b.setFlow f).mirrorDue = b.mirrorDue := rfl
@[simp] theorem Block.setFlow_groups (b : Block) (f : Flow) : (b.setFlow f).groups = b.groups := rfl
@[simp] theorem Block.setFlow_groupBad (b : Block) (f : Flow) : (b.setFlow f).groupBad = b.groupBad := rfl
@[simp] theorem Block.setFlow_segFence (b : Block) (f : Flow) : (b.setFlow f).segFence = b.segFence := rfl
@[simp] theorem Block.setFlow_ctrFence (b : Block) (f : Flow) : (b.setFlow f).ctrFence = b.ctrFence := rfl
@[simp] theorem Block.setFlow_time (b : Block) (f : Flow) : (b.setFlow f).time = b.time := rfl
@[simp] theorem Block.setFlow_host (b : Block) (f : Flow) : (b.setFlow f).host = b.host := rfl
@[simp] theorem Block.setFlow_dest (b : Block) (f : Flow) : (b.setFlow f).dest = b.dest := rfl
@[simp] theorem Block.setFlow_mangle (b : Block) (f : Flow) : (b.setFlow f).mangle = b.mangle := rfl
@[simp] theorem Block.setFlow_fold (b : Block) (f : Flow) : (b.setFlow f).fold = b.fold := rfl
@[simp] theorem Block.setFlow_fwd (b : Block) (f : Flow) : (b.setFlow f).fwd = b.fwd := rfl
@[simp] theorem Block.setFlow_ports (b : Block) (f : Flow) : (b.setFlow f).ports = b.ports := rfl
@[simp] theorem Block.setFlow_lanes (b : Block) (f : Flow) : (b.setFlow f).lanes = b.lanes := rfl
@[simp] theorem Block.setFlow_boot (b : Block) (f : Flow) : (b.setFlow f).boot = b.boot := rfl
@[simp] theorem Block.setFlow_rst (b : Block) (f : Flow) : (b.setFlow f).rst = b.rst := rfl
@[simp] theorem Block.setFlow_obs (b : Block) (f : Flow) : (b.setFlow f).obs = b.obs := rfl
@[simp] theorem Block.setFlow_rp (b : Block) (f : Flow) : (b.setFlow f).rp = b.rp := rfl
@[simp] theorem Block.setFlow_free (b : Block) (f : Flow) : (b.setFlow f).free = b.free := rfl

/-! `setProg` changes `fold` alone. -/

@[simp] theorem Block.setProg_regs (b : Block) (s : Nat) (f : Prog → Prog) : (b.setProg s f).regs = b.regs := rfl
@[simp] theorem Block.setProg_segmap (b : Block) (s : Nat) (f : Prog → Prog) : (b.setProg s f).segmap = b.segmap := rfl
@[simp] theorem Block.setProg_segBad (b : Block) (s : Nat) (f : Prog → Prog) : (b.setProg s f).segBad = b.segBad := rfl
@[simp] theorem Block.setProg_keyRoot (b : Block) (s : Nat) (f : Prog → Prog) : (b.setProg s f).keyRoot = b.keyRoot := rfl
@[simp] theorem Block.setProg_ctrs (b : Block) (s : Nat) (f : Prog → Prog) : (b.setProg s f).ctrs = b.ctrs := rfl
@[simp] theorem Block.setProg_ctrBad (b : Block) (s : Nat) (f : Prog → Prog) : (b.setProg s f).ctrBad = b.ctrBad := rfl
@[simp] theorem Block.setProg_mirrorDue (b : Block) (s : Nat) (f : Prog → Prog) : (b.setProg s f).mirrorDue = b.mirrorDue := rfl
@[simp] theorem Block.setProg_groups (b : Block) (s : Nat) (f : Prog → Prog) : (b.setProg s f).groups = b.groups := rfl
@[simp] theorem Block.setProg_groupBad (b : Block) (s : Nat) (f : Prog → Prog) : (b.setProg s f).groupBad = b.groupBad := rfl
@[simp] theorem Block.setProg_segFence (b : Block) (s : Nat) (f : Prog → Prog) : (b.setProg s f).segFence = b.segFence := rfl
@[simp] theorem Block.setProg_ctrFence (b : Block) (s : Nat) (f : Prog → Prog) : (b.setProg s f).ctrFence = b.ctrFence := rfl
@[simp] theorem Block.setProg_time (b : Block) (s : Nat) (f : Prog → Prog) : (b.setProg s f).time = b.time := rfl
@[simp] theorem Block.setProg_host (b : Block) (s : Nat) (f : Prog → Prog) : (b.setProg s f).host = b.host := rfl
@[simp] theorem Block.setProg_req (b : Block) (s : Nat) (f : Prog → Prog) : (b.setProg s f).req = b.req := rfl
@[simp] theorem Block.setProg_dest (b : Block) (s : Nat) (f : Prog → Prog) : (b.setProg s f).dest = b.dest := rfl
@[simp] theorem Block.setProg_mangle (b : Block) (s : Nat) (f : Prog → Prog) : (b.setProg s f).mangle = b.mangle := rfl
@[simp] theorem Block.setProg_fwd (b : Block) (s : Nat) (f : Prog → Prog) : (b.setProg s f).fwd = b.fwd := rfl
@[simp] theorem Block.setProg_ports (b : Block) (s : Nat) (f : Prog → Prog) : (b.setProg s f).ports = b.ports := rfl
@[simp] theorem Block.setProg_lanes (b : Block) (s : Nat) (f : Prog → Prog) : (b.setProg s f).lanes = b.lanes := rfl
@[simp] theorem Block.setProg_boot (b : Block) (s : Nat) (f : Prog → Prog) : (b.setProg s f).boot = b.boot := rfl
@[simp] theorem Block.setProg_rst (b : Block) (s : Nat) (f : Prog → Prog) : (b.setProg s f).rst = b.rst := rfl
@[simp] theorem Block.setProg_obs (b : Block) (s : Nat) (f : Prog → Prog) : (b.setProg s f).obs = b.obs := rfl
@[simp] theorem Block.setProg_rp (b : Block) (s : Nat) (f : Prog → Prog) : (b.setProg s f).rp = b.rp := rfl
@[simp] theorem Block.setProg_free (b : Block) (s : Nat) (f : Prog → Prog) : (b.setProg s f).free = b.free := rfl

/-! `setPkt` changes `dest` alone. -/

@[simp] theorem Block.setPkt_regs (b : Block) (id : Nat) (f : DPkt → DPkt) : (b.setPkt id f).regs = b.regs := rfl
@[simp] theorem Block.setPkt_segmap (b : Block) (id : Nat) (f : DPkt → DPkt) : (b.setPkt id f).segmap = b.segmap := rfl
@[simp] theorem Block.setPkt_segBad (b : Block) (id : Nat) (f : DPkt → DPkt) : (b.setPkt id f).segBad = b.segBad := rfl
@[simp] theorem Block.setPkt_keyRoot (b : Block) (id : Nat) (f : DPkt → DPkt) : (b.setPkt id f).keyRoot = b.keyRoot := rfl
@[simp] theorem Block.setPkt_ctrs (b : Block) (id : Nat) (f : DPkt → DPkt) : (b.setPkt id f).ctrs = b.ctrs := rfl
@[simp] theorem Block.setPkt_ctrBad (b : Block) (id : Nat) (f : DPkt → DPkt) : (b.setPkt id f).ctrBad = b.ctrBad := rfl
@[simp] theorem Block.setPkt_mirrorDue (b : Block) (id : Nat) (f : DPkt → DPkt) : (b.setPkt id f).mirrorDue = b.mirrorDue := rfl
@[simp] theorem Block.setPkt_groups (b : Block) (id : Nat) (f : DPkt → DPkt) : (b.setPkt id f).groups = b.groups := rfl
@[simp] theorem Block.setPkt_groupBad (b : Block) (id : Nat) (f : DPkt → DPkt) : (b.setPkt id f).groupBad = b.groupBad := rfl
@[simp] theorem Block.setPkt_segFence (b : Block) (id : Nat) (f : DPkt → DPkt) : (b.setPkt id f).segFence = b.segFence := rfl
@[simp] theorem Block.setPkt_ctrFence (b : Block) (id : Nat) (f : DPkt → DPkt) : (b.setPkt id f).ctrFence = b.ctrFence := rfl
@[simp] theorem Block.setPkt_time (b : Block) (id : Nat) (f : DPkt → DPkt) : (b.setPkt id f).time = b.time := rfl
@[simp] theorem Block.setPkt_host (b : Block) (id : Nat) (f : DPkt → DPkt) : (b.setPkt id f).host = b.host := rfl
@[simp] theorem Block.setPkt_req (b : Block) (id : Nat) (f : DPkt → DPkt) : (b.setPkt id f).req = b.req := rfl
@[simp] theorem Block.setPkt_mangle (b : Block) (id : Nat) (f : DPkt → DPkt) : (b.setPkt id f).mangle = b.mangle := rfl
@[simp] theorem Block.setPkt_fold (b : Block) (id : Nat) (f : DPkt → DPkt) : (b.setPkt id f).fold = b.fold := rfl
@[simp] theorem Block.setPkt_fwd (b : Block) (id : Nat) (f : DPkt → DPkt) : (b.setPkt id f).fwd = b.fwd := rfl
@[simp] theorem Block.setPkt_ports (b : Block) (id : Nat) (f : DPkt → DPkt) : (b.setPkt id f).ports = b.ports := rfl
@[simp] theorem Block.setPkt_lanes (b : Block) (id : Nat) (f : DPkt → DPkt) : (b.setPkt id f).lanes = b.lanes := rfl
@[simp] theorem Block.setPkt_boot (b : Block) (id : Nat) (f : DPkt → DPkt) : (b.setPkt id f).boot = b.boot := rfl
@[simp] theorem Block.setPkt_rst (b : Block) (id : Nat) (f : DPkt → DPkt) : (b.setPkt id f).rst = b.rst := rfl
@[simp] theorem Block.setPkt_obs (b : Block) (id : Nat) (f : DPkt → DPkt) : (b.setPkt id f).obs = b.obs := rfl
@[simp] theorem Block.setPkt_rp (b : Block) (id : Nat) (f : DPkt → DPkt) : (b.setPkt id f).rp = b.rp := rfl
@[simp] theorem Block.setPkt_free (b : Block) (id : Nat) (f : DPkt → DPkt) : (b.setPkt id f).free = b.free := rfl

/-! `setDflow` changes `dest` alone. -/

@[simp] theorem Block.setDflow_regs (b : Block) (f : DFlow) : (b.setDflow f).regs = b.regs := rfl
@[simp] theorem Block.setDflow_segmap (b : Block) (f : DFlow) : (b.setDflow f).segmap = b.segmap := rfl
@[simp] theorem Block.setDflow_segBad (b : Block) (f : DFlow) : (b.setDflow f).segBad = b.segBad := rfl
@[simp] theorem Block.setDflow_keyRoot (b : Block) (f : DFlow) : (b.setDflow f).keyRoot = b.keyRoot := rfl
@[simp] theorem Block.setDflow_ctrs (b : Block) (f : DFlow) : (b.setDflow f).ctrs = b.ctrs := rfl
@[simp] theorem Block.setDflow_ctrBad (b : Block) (f : DFlow) : (b.setDflow f).ctrBad = b.ctrBad := rfl
@[simp] theorem Block.setDflow_mirrorDue (b : Block) (f : DFlow) : (b.setDflow f).mirrorDue = b.mirrorDue := rfl
@[simp] theorem Block.setDflow_groups (b : Block) (f : DFlow) : (b.setDflow f).groups = b.groups := rfl
@[simp] theorem Block.setDflow_groupBad (b : Block) (f : DFlow) : (b.setDflow f).groupBad = b.groupBad := rfl
@[simp] theorem Block.setDflow_segFence (b : Block) (f : DFlow) : (b.setDflow f).segFence = b.segFence := rfl
@[simp] theorem Block.setDflow_ctrFence (b : Block) (f : DFlow) : (b.setDflow f).ctrFence = b.ctrFence := rfl
@[simp] theorem Block.setDflow_time (b : Block) (f : DFlow) : (b.setDflow f).time = b.time := rfl
@[simp] theorem Block.setDflow_host (b : Block) (f : DFlow) : (b.setDflow f).host = b.host := rfl
@[simp] theorem Block.setDflow_req (b : Block) (f : DFlow) : (b.setDflow f).req = b.req := rfl
@[simp] theorem Block.setDflow_mangle (b : Block) (f : DFlow) : (b.setDflow f).mangle = b.mangle := rfl
@[simp] theorem Block.setDflow_fold (b : Block) (f : DFlow) : (b.setDflow f).fold = b.fold := rfl
@[simp] theorem Block.setDflow_fwd (b : Block) (f : DFlow) : (b.setDflow f).fwd = b.fwd := rfl
@[simp] theorem Block.setDflow_ports (b : Block) (f : DFlow) : (b.setDflow f).ports = b.ports := rfl
@[simp] theorem Block.setDflow_lanes (b : Block) (f : DFlow) : (b.setDflow f).lanes = b.lanes := rfl
@[simp] theorem Block.setDflow_boot (b : Block) (f : DFlow) : (b.setDflow f).boot = b.boot := rfl
@[simp] theorem Block.setDflow_rst (b : Block) (f : DFlow) : (b.setDflow f).rst = b.rst := rfl
@[simp] theorem Block.setDflow_obs (b : Block) (f : DFlow) : (b.setDflow f).obs = b.obs := rfl
@[simp] theorem Block.setDflow_rp (b : Block) (f : DFlow) : (b.setDflow f).rp = b.rp := rfl
@[simp] theorem Block.setDflow_free (b : Block) (f : DFlow) : (b.setDflow f).free = b.free := rfl

/-! `setFpkt` changes `fwd` alone. -/

@[simp] theorem Block.setFpkt_regs (b : Block) (id : Nat) (f : FPkt → FPkt) : (b.setFpkt id f).regs = b.regs := rfl
@[simp] theorem Block.setFpkt_segmap (b : Block) (id : Nat) (f : FPkt → FPkt) : (b.setFpkt id f).segmap = b.segmap := rfl
@[simp] theorem Block.setFpkt_segBad (b : Block) (id : Nat) (f : FPkt → FPkt) : (b.setFpkt id f).segBad = b.segBad := rfl
@[simp] theorem Block.setFpkt_keyRoot (b : Block) (id : Nat) (f : FPkt → FPkt) : (b.setFpkt id f).keyRoot = b.keyRoot := rfl
@[simp] theorem Block.setFpkt_ctrs (b : Block) (id : Nat) (f : FPkt → FPkt) : (b.setFpkt id f).ctrs = b.ctrs := rfl
@[simp] theorem Block.setFpkt_ctrBad (b : Block) (id : Nat) (f : FPkt → FPkt) : (b.setFpkt id f).ctrBad = b.ctrBad := rfl
@[simp] theorem Block.setFpkt_mirrorDue (b : Block) (id : Nat) (f : FPkt → FPkt) : (b.setFpkt id f).mirrorDue = b.mirrorDue := rfl
@[simp] theorem Block.setFpkt_groups (b : Block) (id : Nat) (f : FPkt → FPkt) : (b.setFpkt id f).groups = b.groups := rfl
@[simp] theorem Block.setFpkt_groupBad (b : Block) (id : Nat) (f : FPkt → FPkt) : (b.setFpkt id f).groupBad = b.groupBad := rfl
@[simp] theorem Block.setFpkt_segFence (b : Block) (id : Nat) (f : FPkt → FPkt) : (b.setFpkt id f).segFence = b.segFence := rfl
@[simp] theorem Block.setFpkt_ctrFence (b : Block) (id : Nat) (f : FPkt → FPkt) : (b.setFpkt id f).ctrFence = b.ctrFence := rfl
@[simp] theorem Block.setFpkt_time (b : Block) (id : Nat) (f : FPkt → FPkt) : (b.setFpkt id f).time = b.time := rfl
@[simp] theorem Block.setFpkt_host (b : Block) (id : Nat) (f : FPkt → FPkt) : (b.setFpkt id f).host = b.host := rfl
@[simp] theorem Block.setFpkt_req (b : Block) (id : Nat) (f : FPkt → FPkt) : (b.setFpkt id f).req = b.req := rfl
@[simp] theorem Block.setFpkt_dest (b : Block) (id : Nat) (f : FPkt → FPkt) : (b.setFpkt id f).dest = b.dest := rfl
@[simp] theorem Block.setFpkt_mangle (b : Block) (id : Nat) (f : FPkt → FPkt) : (b.setFpkt id f).mangle = b.mangle := rfl
@[simp] theorem Block.setFpkt_fold (b : Block) (id : Nat) (f : FPkt → FPkt) : (b.setFpkt id f).fold = b.fold := rfl
@[simp] theorem Block.setFpkt_ports (b : Block) (id : Nat) (f : FPkt → FPkt) : (b.setFpkt id f).ports = b.ports := rfl
@[simp] theorem Block.setFpkt_lanes (b : Block) (id : Nat) (f : FPkt → FPkt) : (b.setFpkt id f).lanes = b.lanes := rfl
@[simp] theorem Block.setFpkt_boot (b : Block) (id : Nat) (f : FPkt → FPkt) : (b.setFpkt id f).boot = b.boot := rfl
@[simp] theorem Block.setFpkt_rst (b : Block) (id : Nat) (f : FPkt → FPkt) : (b.setFpkt id f).rst = b.rst := rfl
@[simp] theorem Block.setFpkt_obs (b : Block) (id : Nat) (f : FPkt → FPkt) : (b.setFpkt id f).obs = b.obs := rfl
@[simp] theorem Block.setFpkt_rp (b : Block) (id : Nat) (f : FPkt → FPkt) : (b.setFpkt id f).rp = b.rp := rfl
@[simp] theorem Block.setFpkt_free (b : Block) (id : Nat) (f : FPkt → FPkt) : (b.setFpkt id f).free = b.free := rfl

/-! `setBranch` changes `fwd` alone. -/

@[simp] theorem Block.setBranch_regs (b : Block) (id : Nat) (out : Nat) (f : Branch → Branch) : (b.setBranch id out f).regs = b.regs := rfl
@[simp] theorem Block.setBranch_segmap (b : Block) (id : Nat) (out : Nat) (f : Branch → Branch) : (b.setBranch id out f).segmap = b.segmap := rfl
@[simp] theorem Block.setBranch_segBad (b : Block) (id : Nat) (out : Nat) (f : Branch → Branch) : (b.setBranch id out f).segBad = b.segBad := rfl
@[simp] theorem Block.setBranch_keyRoot (b : Block) (id : Nat) (out : Nat) (f : Branch → Branch) : (b.setBranch id out f).keyRoot = b.keyRoot := rfl
@[simp] theorem Block.setBranch_ctrs (b : Block) (id : Nat) (out : Nat) (f : Branch → Branch) : (b.setBranch id out f).ctrs = b.ctrs := rfl
@[simp] theorem Block.setBranch_ctrBad (b : Block) (id : Nat) (out : Nat) (f : Branch → Branch) : (b.setBranch id out f).ctrBad = b.ctrBad := rfl
@[simp] theorem Block.setBranch_mirrorDue (b : Block) (id : Nat) (out : Nat) (f : Branch → Branch) : (b.setBranch id out f).mirrorDue = b.mirrorDue := rfl
@[simp] theorem Block.setBranch_groups (b : Block) (id : Nat) (out : Nat) (f : Branch → Branch) : (b.setBranch id out f).groups = b.groups := rfl
@[simp] theorem Block.setBranch_groupBad (b : Block) (id : Nat) (out : Nat) (f : Branch → Branch) : (b.setBranch id out f).groupBad = b.groupBad := rfl
@[simp] theorem Block.setBranch_segFence (b : Block) (id : Nat) (out : Nat) (f : Branch → Branch) : (b.setBranch id out f).segFence = b.segFence := rfl
@[simp] theorem Block.setBranch_ctrFence (b : Block) (id : Nat) (out : Nat) (f : Branch → Branch) : (b.setBranch id out f).ctrFence = b.ctrFence := rfl
@[simp] theorem Block.setBranch_time (b : Block) (id : Nat) (out : Nat) (f : Branch → Branch) : (b.setBranch id out f).time = b.time := rfl
@[simp] theorem Block.setBranch_host (b : Block) (id : Nat) (out : Nat) (f : Branch → Branch) : (b.setBranch id out f).host = b.host := rfl
@[simp] theorem Block.setBranch_req (b : Block) (id : Nat) (out : Nat) (f : Branch → Branch) : (b.setBranch id out f).req = b.req := rfl
@[simp] theorem Block.setBranch_dest (b : Block) (id : Nat) (out : Nat) (f : Branch → Branch) : (b.setBranch id out f).dest = b.dest := rfl
@[simp] theorem Block.setBranch_mangle (b : Block) (id : Nat) (out : Nat) (f : Branch → Branch) : (b.setBranch id out f).mangle = b.mangle := rfl
@[simp] theorem Block.setBranch_fold (b : Block) (id : Nat) (out : Nat) (f : Branch → Branch) : (b.setBranch id out f).fold = b.fold := rfl
@[simp] theorem Block.setBranch_ports (b : Block) (id : Nat) (out : Nat) (f : Branch → Branch) : (b.setBranch id out f).ports = b.ports := rfl
@[simp] theorem Block.setBranch_lanes (b : Block) (id : Nat) (out : Nat) (f : Branch → Branch) : (b.setBranch id out f).lanes = b.lanes := rfl
@[simp] theorem Block.setBranch_boot (b : Block) (id : Nat) (out : Nat) (f : Branch → Branch) : (b.setBranch id out f).boot = b.boot := rfl
@[simp] theorem Block.setBranch_rst (b : Block) (id : Nat) (out : Nat) (f : Branch → Branch) : (b.setBranch id out f).rst = b.rst := rfl
@[simp] theorem Block.setBranch_obs (b : Block) (id : Nat) (out : Nat) (f : Branch → Branch) : (b.setBranch id out f).obs = b.obs := rfl
@[simp] theorem Block.setBranch_rp (b : Block) (id : Nat) (out : Nat) (f : Branch → Branch) : (b.setBranch id out f).rp = b.rp := rfl
@[simp] theorem Block.setBranch_free (b : Block) (id : Nat) (out : Nat) (f : Branch → Branch) : (b.setBranch id out f).free = b.free := rfl

/-! `setTxn` changes `host` alone. -/

@[simp] theorem Block.setTxn_regs (b : Block) (ch : Nat) (tag : Nat) (f : Txn → Txn) : (b.setTxn ch tag f).regs = b.regs := rfl
@[simp] theorem Block.setTxn_segmap (b : Block) (ch : Nat) (tag : Nat) (f : Txn → Txn) : (b.setTxn ch tag f).segmap = b.segmap := rfl
@[simp] theorem Block.setTxn_segBad (b : Block) (ch : Nat) (tag : Nat) (f : Txn → Txn) : (b.setTxn ch tag f).segBad = b.segBad := rfl
@[simp] theorem Block.setTxn_keyRoot (b : Block) (ch : Nat) (tag : Nat) (f : Txn → Txn) : (b.setTxn ch tag f).keyRoot = b.keyRoot := rfl
@[simp] theorem Block.setTxn_ctrs (b : Block) (ch : Nat) (tag : Nat) (f : Txn → Txn) : (b.setTxn ch tag f).ctrs = b.ctrs := rfl
@[simp] theorem Block.setTxn_ctrBad (b : Block) (ch : Nat) (tag : Nat) (f : Txn → Txn) : (b.setTxn ch tag f).ctrBad = b.ctrBad := rfl
@[simp] theorem Block.setTxn_mirrorDue (b : Block) (ch : Nat) (tag : Nat) (f : Txn → Txn) : (b.setTxn ch tag f).mirrorDue = b.mirrorDue := rfl
@[simp] theorem Block.setTxn_groups (b : Block) (ch : Nat) (tag : Nat) (f : Txn → Txn) : (b.setTxn ch tag f).groups = b.groups := rfl
@[simp] theorem Block.setTxn_groupBad (b : Block) (ch : Nat) (tag : Nat) (f : Txn → Txn) : (b.setTxn ch tag f).groupBad = b.groupBad := rfl
@[simp] theorem Block.setTxn_segFence (b : Block) (ch : Nat) (tag : Nat) (f : Txn → Txn) : (b.setTxn ch tag f).segFence = b.segFence := rfl
@[simp] theorem Block.setTxn_ctrFence (b : Block) (ch : Nat) (tag : Nat) (f : Txn → Txn) : (b.setTxn ch tag f).ctrFence = b.ctrFence := rfl
@[simp] theorem Block.setTxn_time (b : Block) (ch : Nat) (tag : Nat) (f : Txn → Txn) : (b.setTxn ch tag f).time = b.time := rfl
@[simp] theorem Block.setTxn_req (b : Block) (ch : Nat) (tag : Nat) (f : Txn → Txn) : (b.setTxn ch tag f).req = b.req := rfl
@[simp] theorem Block.setTxn_dest (b : Block) (ch : Nat) (tag : Nat) (f : Txn → Txn) : (b.setTxn ch tag f).dest = b.dest := rfl
@[simp] theorem Block.setTxn_mangle (b : Block) (ch : Nat) (tag : Nat) (f : Txn → Txn) : (b.setTxn ch tag f).mangle = b.mangle := rfl
@[simp] theorem Block.setTxn_fold (b : Block) (ch : Nat) (tag : Nat) (f : Txn → Txn) : (b.setTxn ch tag f).fold = b.fold := rfl
@[simp] theorem Block.setTxn_fwd (b : Block) (ch : Nat) (tag : Nat) (f : Txn → Txn) : (b.setTxn ch tag f).fwd = b.fwd := rfl
@[simp] theorem Block.setTxn_ports (b : Block) (ch : Nat) (tag : Nat) (f : Txn → Txn) : (b.setTxn ch tag f).ports = b.ports := rfl
@[simp] theorem Block.setTxn_lanes (b : Block) (ch : Nat) (tag : Nat) (f : Txn → Txn) : (b.setTxn ch tag f).lanes = b.lanes := rfl
@[simp] theorem Block.setTxn_boot (b : Block) (ch : Nat) (tag : Nat) (f : Txn → Txn) : (b.setTxn ch tag f).boot = b.boot := rfl
@[simp] theorem Block.setTxn_rst (b : Block) (ch : Nat) (tag : Nat) (f : Txn → Txn) : (b.setTxn ch tag f).rst = b.rst := rfl
@[simp] theorem Block.setTxn_obs (b : Block) (ch : Nat) (tag : Nat) (f : Txn → Txn) : (b.setTxn ch tag f).obs = b.obs := rfl
@[simp] theorem Block.setTxn_rp (b : Block) (ch : Nat) (tag : Nat) (f : Txn → Txn) : (b.setTxn ch tag f).rp = b.rp := rfl
@[simp] theorem Block.setTxn_free (b : Block) (ch : Nat) (tag : Nat) (f : Txn → Txn) : (b.setTxn ch tag f).free = b.free := rfl

/-! `noteTook` changes `rst` alone. -/

@[simp] theorem Block.noteTook_regs (b : Block) (e : Nat) (c : Nat) : (b.noteTook e c).regs = b.regs := rfl
@[simp] theorem Block.noteTook_segmap (b : Block) (e : Nat) (c : Nat) : (b.noteTook e c).segmap = b.segmap := rfl
@[simp] theorem Block.noteTook_segBad (b : Block) (e : Nat) (c : Nat) : (b.noteTook e c).segBad = b.segBad := rfl
@[simp] theorem Block.noteTook_keyRoot (b : Block) (e : Nat) (c : Nat) : (b.noteTook e c).keyRoot = b.keyRoot := rfl
@[simp] theorem Block.noteTook_ctrs (b : Block) (e : Nat) (c : Nat) : (b.noteTook e c).ctrs = b.ctrs := rfl
@[simp] theorem Block.noteTook_ctrBad (b : Block) (e : Nat) (c : Nat) : (b.noteTook e c).ctrBad = b.ctrBad := rfl
@[simp] theorem Block.noteTook_mirrorDue (b : Block) (e : Nat) (c : Nat) : (b.noteTook e c).mirrorDue = b.mirrorDue := rfl
@[simp] theorem Block.noteTook_groups (b : Block) (e : Nat) (c : Nat) : (b.noteTook e c).groups = b.groups := rfl
@[simp] theorem Block.noteTook_groupBad (b : Block) (e : Nat) (c : Nat) : (b.noteTook e c).groupBad = b.groupBad := rfl
@[simp] theorem Block.noteTook_segFence (b : Block) (e : Nat) (c : Nat) : (b.noteTook e c).segFence = b.segFence := rfl
@[simp] theorem Block.noteTook_ctrFence (b : Block) (e : Nat) (c : Nat) : (b.noteTook e c).ctrFence = b.ctrFence := rfl
@[simp] theorem Block.noteTook_time (b : Block) (e : Nat) (c : Nat) : (b.noteTook e c).time = b.time := rfl
@[simp] theorem Block.noteTook_host (b : Block) (e : Nat) (c : Nat) : (b.noteTook e c).host = b.host := rfl
@[simp] theorem Block.noteTook_req (b : Block) (e : Nat) (c : Nat) : (b.noteTook e c).req = b.req := rfl
@[simp] theorem Block.noteTook_dest (b : Block) (e : Nat) (c : Nat) : (b.noteTook e c).dest = b.dest := rfl
@[simp] theorem Block.noteTook_mangle (b : Block) (e : Nat) (c : Nat) : (b.noteTook e c).mangle = b.mangle := rfl
@[simp] theorem Block.noteTook_fold (b : Block) (e : Nat) (c : Nat) : (b.noteTook e c).fold = b.fold := rfl
@[simp] theorem Block.noteTook_fwd (b : Block) (e : Nat) (c : Nat) : (b.noteTook e c).fwd = b.fwd := rfl
@[simp] theorem Block.noteTook_ports (b : Block) (e : Nat) (c : Nat) : (b.noteTook e c).ports = b.ports := rfl
@[simp] theorem Block.noteTook_lanes (b : Block) (e : Nat) (c : Nat) : (b.noteTook e c).lanes = b.lanes := rfl
@[simp] theorem Block.noteTook_boot (b : Block) (e : Nat) (c : Nat) : (b.noteTook e c).boot = b.boot := rfl
@[simp] theorem Block.noteTook_obs (b : Block) (e : Nat) (c : Nat) : (b.noteTook e c).obs = b.obs := rfl
@[simp] theorem Block.noteTook_rp (b : Block) (e : Nat) (c : Nat) : (b.noteTook e c).rp = b.rp := rfl
@[simp] theorem Block.noteTook_free (b : Block) (e : Nat) (c : Nat) : (b.noteTook e c).free = b.free := rfl

/-! `jtag` changes `boot` alone. -/

@[simp] theorem Block.jtag_regs (b : Block) (ir : Nat) (dr : Nat) : (b.jtag ir dr).regs = b.regs := rfl
@[simp] theorem Block.jtag_segmap (b : Block) (ir : Nat) (dr : Nat) : (b.jtag ir dr).segmap = b.segmap := rfl
@[simp] theorem Block.jtag_segBad (b : Block) (ir : Nat) (dr : Nat) : (b.jtag ir dr).segBad = b.segBad := rfl
@[simp] theorem Block.jtag_keyRoot (b : Block) (ir : Nat) (dr : Nat) : (b.jtag ir dr).keyRoot = b.keyRoot := rfl
@[simp] theorem Block.jtag_ctrs (b : Block) (ir : Nat) (dr : Nat) : (b.jtag ir dr).ctrs = b.ctrs := rfl
@[simp] theorem Block.jtag_ctrBad (b : Block) (ir : Nat) (dr : Nat) : (b.jtag ir dr).ctrBad = b.ctrBad := rfl
@[simp] theorem Block.jtag_mirrorDue (b : Block) (ir : Nat) (dr : Nat) : (b.jtag ir dr).mirrorDue = b.mirrorDue := rfl
@[simp] theorem Block.jtag_groups (b : Block) (ir : Nat) (dr : Nat) : (b.jtag ir dr).groups = b.groups := rfl
@[simp] theorem Block.jtag_groupBad (b : Block) (ir : Nat) (dr : Nat) : (b.jtag ir dr).groupBad = b.groupBad := rfl
@[simp] theorem Block.jtag_segFence (b : Block) (ir : Nat) (dr : Nat) : (b.jtag ir dr).segFence = b.segFence := rfl
@[simp] theorem Block.jtag_ctrFence (b : Block) (ir : Nat) (dr : Nat) : (b.jtag ir dr).ctrFence = b.ctrFence := rfl
@[simp] theorem Block.jtag_time (b : Block) (ir : Nat) (dr : Nat) : (b.jtag ir dr).time = b.time := rfl
@[simp] theorem Block.jtag_host (b : Block) (ir : Nat) (dr : Nat) : (b.jtag ir dr).host = b.host := rfl
@[simp] theorem Block.jtag_req (b : Block) (ir : Nat) (dr : Nat) : (b.jtag ir dr).req = b.req := rfl
@[simp] theorem Block.jtag_dest (b : Block) (ir : Nat) (dr : Nat) : (b.jtag ir dr).dest = b.dest := rfl
@[simp] theorem Block.jtag_mangle (b : Block) (ir : Nat) (dr : Nat) : (b.jtag ir dr).mangle = b.mangle := rfl
@[simp] theorem Block.jtag_fold (b : Block) (ir : Nat) (dr : Nat) : (b.jtag ir dr).fold = b.fold := rfl
@[simp] theorem Block.jtag_fwd (b : Block) (ir : Nat) (dr : Nat) : (b.jtag ir dr).fwd = b.fwd := rfl
@[simp] theorem Block.jtag_ports (b : Block) (ir : Nat) (dr : Nat) : (b.jtag ir dr).ports = b.ports := rfl
@[simp] theorem Block.jtag_lanes (b : Block) (ir : Nat) (dr : Nat) : (b.jtag ir dr).lanes = b.lanes := rfl
@[simp] theorem Block.jtag_rst (b : Block) (ir : Nat) (dr : Nat) : (b.jtag ir dr).rst = b.rst := rfl
@[simp] theorem Block.jtag_obs (b : Block) (ir : Nat) (dr : Nat) : (b.jtag ir dr).obs = b.obs := rfl
@[simp] theorem Block.jtag_rp (b : Block) (ir : Nat) (dr : Nat) : (b.jtag ir dr).rp = b.rp := rfl
@[simp] theorem Block.jtag_free (b : Block) (ir : Nat) (dr : Nat) : (b.jtag ir dr).free = b.free := rfl

/-! A count of an event changes `regs` and `obs` alone; the stalls of a time that passes change `fold` alone, `clock` `time` too. -/

@[simp] theorem Block.bumpN_segmap (b : Block) (w n : Nat) : (b.bumpN w n).segmap = b.segmap := by
  unfold Block.bumpN; split <;> rfl
@[simp] theorem Block.bumpN_segBad (b : Block) (w n : Nat) : (b.bumpN w n).segBad = b.segBad := by
  unfold Block.bumpN; split <;> rfl
@[simp] theorem Block.bumpN_keyRoot (b : Block) (w n : Nat) : (b.bumpN w n).keyRoot = b.keyRoot := by
  unfold Block.bumpN; split <;> rfl
@[simp] theorem Block.bumpN_ctrs (b : Block) (w n : Nat) : (b.bumpN w n).ctrs = b.ctrs := by
  unfold Block.bumpN; split <;> rfl
@[simp] theorem Block.bumpN_ctrBad (b : Block) (w n : Nat) : (b.bumpN w n).ctrBad = b.ctrBad := by
  unfold Block.bumpN; split <;> rfl
@[simp] theorem Block.bumpN_mirrorDue (b : Block) (w n : Nat) : (b.bumpN w n).mirrorDue = b.mirrorDue := by
  unfold Block.bumpN; split <;> rfl
@[simp] theorem Block.bumpN_groups (b : Block) (w n : Nat) : (b.bumpN w n).groups = b.groups := by
  unfold Block.bumpN; split <;> rfl
@[simp] theorem Block.bumpN_groupBad (b : Block) (w n : Nat) : (b.bumpN w n).groupBad = b.groupBad := by
  unfold Block.bumpN; split <;> rfl
@[simp] theorem Block.bumpN_segFence (b : Block) (w n : Nat) : (b.bumpN w n).segFence = b.segFence := by
  unfold Block.bumpN; split <;> rfl
@[simp] theorem Block.bumpN_ctrFence (b : Block) (w n : Nat) : (b.bumpN w n).ctrFence = b.ctrFence := by
  unfold Block.bumpN; split <;> rfl
@[simp] theorem Block.bumpN_time (b : Block) (w n : Nat) : (b.bumpN w n).time = b.time := by
  unfold Block.bumpN; split <;> rfl
@[simp] theorem Block.bumpN_host (b : Block) (w n : Nat) : (b.bumpN w n).host = b.host := by
  unfold Block.bumpN; split <;> rfl
@[simp] theorem Block.bumpN_req (b : Block) (w n : Nat) : (b.bumpN w n).req = b.req := by
  unfold Block.bumpN; split <;> rfl
@[simp] theorem Block.bumpN_dest (b : Block) (w n : Nat) : (b.bumpN w n).dest = b.dest := by
  unfold Block.bumpN; split <;> rfl
@[simp] theorem Block.bumpN_mangle (b : Block) (w n : Nat) : (b.bumpN w n).mangle = b.mangle := by
  unfold Block.bumpN; split <;> rfl
@[simp] theorem Block.bumpN_fold (b : Block) (w n : Nat) : (b.bumpN w n).fold = b.fold := by
  unfold Block.bumpN; split <;> rfl
@[simp] theorem Block.bumpN_fwd (b : Block) (w n : Nat) : (b.bumpN w n).fwd = b.fwd := by
  unfold Block.bumpN; split <;> rfl
@[simp] theorem Block.bumpN_ports (b : Block) (w n : Nat) : (b.bumpN w n).ports = b.ports := by
  unfold Block.bumpN; split <;> rfl
@[simp] theorem Block.bumpN_lanes (b : Block) (w n : Nat) : (b.bumpN w n).lanes = b.lanes := by
  unfold Block.bumpN; split <;> rfl
@[simp] theorem Block.bumpN_boot (b : Block) (w n : Nat) : (b.bumpN w n).boot = b.boot := by
  unfold Block.bumpN; split <;> rfl
@[simp] theorem Block.bumpN_rst (b : Block) (w n : Nat) : (b.bumpN w n).rst = b.rst := by
  unfold Block.bumpN; split <;> rfl
@[simp] theorem Block.bumpN_rp (b : Block) (w n : Nat) : (b.bumpN w n).rp = b.rp := by
  unfold Block.bumpN; split <;> rfl
@[simp] theorem Block.bumpN_free (b : Block) (w n : Nat) : (b.bumpN w n).free = b.free := by
  unfold Block.bumpN; split <;> rfl
@[simp] theorem Block.foldBump_regs (b : Block) (s k n : Nat) : (b.foldBump s k n).regs = b.regs := rfl
@[simp] theorem Block.foldBump_segmap (b : Block) (s k n : Nat) : (b.foldBump s k n).segmap = b.segmap := rfl
@[simp] theorem Block.foldBump_segBad (b : Block) (s k n : Nat) : (b.foldBump s k n).segBad = b.segBad := rfl
@[simp] theorem Block.foldBump_keyRoot (b : Block) (s k n : Nat) : (b.foldBump s k n).keyRoot = b.keyRoot := rfl
@[simp] theorem Block.foldBump_ctrs (b : Block) (s k n : Nat) : (b.foldBump s k n).ctrs = b.ctrs := rfl
@[simp] theorem Block.foldBump_ctrBad (b : Block) (s k n : Nat) : (b.foldBump s k n).ctrBad = b.ctrBad := rfl
@[simp] theorem Block.foldBump_mirrorDue (b : Block) (s k n : Nat) : (b.foldBump s k n).mirrorDue = b.mirrorDue := rfl
@[simp] theorem Block.foldBump_groups (b : Block) (s k n : Nat) : (b.foldBump s k n).groups = b.groups := rfl
@[simp] theorem Block.foldBump_groupBad (b : Block) (s k n : Nat) : (b.foldBump s k n).groupBad = b.groupBad := rfl
@[simp] theorem Block.foldBump_segFence (b : Block) (s k n : Nat) : (b.foldBump s k n).segFence = b.segFence := rfl
@[simp] theorem Block.foldBump_ctrFence (b : Block) (s k n : Nat) : (b.foldBump s k n).ctrFence = b.ctrFence := rfl
@[simp] theorem Block.foldBump_time (b : Block) (s k n : Nat) : (b.foldBump s k n).time = b.time := rfl
@[simp] theorem Block.foldBump_host (b : Block) (s k n : Nat) : (b.foldBump s k n).host = b.host := rfl
@[simp] theorem Block.foldBump_req (b : Block) (s k n : Nat) : (b.foldBump s k n).req = b.req := rfl
@[simp] theorem Block.foldBump_dest (b : Block) (s k n : Nat) : (b.foldBump s k n).dest = b.dest := rfl
@[simp] theorem Block.foldBump_mangle (b : Block) (s k n : Nat) : (b.foldBump s k n).mangle = b.mangle := rfl
@[simp] theorem Block.foldBump_fwd (b : Block) (s k n : Nat) : (b.foldBump s k n).fwd = b.fwd := rfl
@[simp] theorem Block.foldBump_ports (b : Block) (s k n : Nat) : (b.foldBump s k n).ports = b.ports := rfl
@[simp] theorem Block.foldBump_lanes (b : Block) (s k n : Nat) : (b.foldBump s k n).lanes = b.lanes := rfl
@[simp] theorem Block.foldBump_boot (b : Block) (s k n : Nat) : (b.foldBump s k n).boot = b.boot := rfl
@[simp] theorem Block.foldBump_rst (b : Block) (s k n : Nat) : (b.foldBump s k n).rst = b.rst := rfl
@[simp] theorem Block.foldBump_obs (b : Block) (s k n : Nat) : (b.foldBump s k n).obs = b.obs := rfl
@[simp] theorem Block.foldBump_rp (b : Block) (s k n : Nat) : (b.foldBump s k n).rp = b.rp := rfl
@[simp] theorem Block.foldBump_free (b : Block) (s k n : Nat) : (b.foldBump s k n).free = b.free := rfl
@[simp] theorem Block.stall_regs (b : Block) (s n : Nat) : (b.stall s n).regs = b.regs := by
  unfold Block.stall; split <;> simp
@[simp] theorem Block.stall_segmap (b : Block) (s n : Nat) : (b.stall s n).segmap = b.segmap := by
  unfold Block.stall; split <;> simp
@[simp] theorem Block.stall_segBad (b : Block) (s n : Nat) : (b.stall s n).segBad = b.segBad := by
  unfold Block.stall; split <;> simp
@[simp] theorem Block.stall_keyRoot (b : Block) (s n : Nat) : (b.stall s n).keyRoot = b.keyRoot := by
  unfold Block.stall; split <;> simp
@[simp] theorem Block.stall_ctrs (b : Block) (s n : Nat) : (b.stall s n).ctrs = b.ctrs := by
  unfold Block.stall; split <;> simp
@[simp] theorem Block.stall_ctrBad (b : Block) (s n : Nat) : (b.stall s n).ctrBad = b.ctrBad := by
  unfold Block.stall; split <;> simp
@[simp] theorem Block.stall_mirrorDue (b : Block) (s n : Nat) : (b.stall s n).mirrorDue = b.mirrorDue := by
  unfold Block.stall; split <;> simp
@[simp] theorem Block.stall_groups (b : Block) (s n : Nat) : (b.stall s n).groups = b.groups := by
  unfold Block.stall; split <;> simp
@[simp] theorem Block.stall_groupBad (b : Block) (s n : Nat) : (b.stall s n).groupBad = b.groupBad := by
  unfold Block.stall; split <;> simp
@[simp] theorem Block.stall_segFence (b : Block) (s n : Nat) : (b.stall s n).segFence = b.segFence := by
  unfold Block.stall; split <;> simp
@[simp] theorem Block.stall_ctrFence (b : Block) (s n : Nat) : (b.stall s n).ctrFence = b.ctrFence := by
  unfold Block.stall; split <;> simp
@[simp] theorem Block.stall_time (b : Block) (s n : Nat) : (b.stall s n).time = b.time := by
  unfold Block.stall; split <;> simp
@[simp] theorem Block.stall_host (b : Block) (s n : Nat) : (b.stall s n).host = b.host := by
  unfold Block.stall; split <;> simp
@[simp] theorem Block.stall_req (b : Block) (s n : Nat) : (b.stall s n).req = b.req := by
  unfold Block.stall; split <;> simp
@[simp] theorem Block.stall_dest (b : Block) (s n : Nat) : (b.stall s n).dest = b.dest := by
  unfold Block.stall; split <;> simp
@[simp] theorem Block.stall_mangle (b : Block) (s n : Nat) : (b.stall s n).mangle = b.mangle := by
  unfold Block.stall; split <;> simp
@[simp] theorem Block.stall_fwd (b : Block) (s n : Nat) : (b.stall s n).fwd = b.fwd := by
  unfold Block.stall; split <;> simp
@[simp] theorem Block.stall_ports (b : Block) (s n : Nat) : (b.stall s n).ports = b.ports := by
  unfold Block.stall; split <;> simp
@[simp] theorem Block.stall_lanes (b : Block) (s n : Nat) : (b.stall s n).lanes = b.lanes := by
  unfold Block.stall; split <;> simp
@[simp] theorem Block.stall_boot (b : Block) (s n : Nat) : (b.stall s n).boot = b.boot := by
  unfold Block.stall; split <;> simp
@[simp] theorem Block.stall_rst (b : Block) (s n : Nat) : (b.stall s n).rst = b.rst := by
  unfold Block.stall; split <;> simp
@[simp] theorem Block.stall_obs (b : Block) (s n : Nat) : (b.stall s n).obs = b.obs := by
  unfold Block.stall; split <;> simp
@[simp] theorem Block.stall_rp (b : Block) (s n : Nat) : (b.stall s n).rp = b.rp := by
  unfold Block.stall; split <;> simp
@[simp] theorem Block.stall_free (b : Block) (s n : Nat) : (b.stall s n).free = b.free := by
  unfold Block.stall; split <;> simp
@[simp] theorem Block.stalls_regs (b : Block) (old : Nat) : (b.stalls old).regs = b.regs := by
  unfold Block.stalls
  exact foldl_field (·.regs) _ _ (fun z t => by simp) b
@[simp] theorem Block.stalls_segmap (b : Block) (old : Nat) : (b.stalls old).segmap = b.segmap := by
  unfold Block.stalls
  exact foldl_field (·.segmap) _ _ (fun z t => by simp) b
@[simp] theorem Block.stalls_segBad (b : Block) (old : Nat) : (b.stalls old).segBad = b.segBad := by
  unfold Block.stalls
  exact foldl_field (·.segBad) _ _ (fun z t => by simp) b
@[simp] theorem Block.stalls_keyRoot (b : Block) (old : Nat) : (b.stalls old).keyRoot = b.keyRoot := by
  unfold Block.stalls
  exact foldl_field (·.keyRoot) _ _ (fun z t => by simp) b
@[simp] theorem Block.stalls_ctrs (b : Block) (old : Nat) : (b.stalls old).ctrs = b.ctrs := by
  unfold Block.stalls
  exact foldl_field (·.ctrs) _ _ (fun z t => by simp) b
@[simp] theorem Block.stalls_ctrBad (b : Block) (old : Nat) : (b.stalls old).ctrBad = b.ctrBad := by
  unfold Block.stalls
  exact foldl_field (·.ctrBad) _ _ (fun z t => by simp) b
@[simp] theorem Block.stalls_mirrorDue (b : Block) (old : Nat) : (b.stalls old).mirrorDue = b.mirrorDue := by
  unfold Block.stalls
  exact foldl_field (·.mirrorDue) _ _ (fun z t => by simp) b
@[simp] theorem Block.stalls_groups (b : Block) (old : Nat) : (b.stalls old).groups = b.groups := by
  unfold Block.stalls
  exact foldl_field (·.groups) _ _ (fun z t => by simp) b
@[simp] theorem Block.stalls_groupBad (b : Block) (old : Nat) : (b.stalls old).groupBad = b.groupBad := by
  unfold Block.stalls
  exact foldl_field (·.groupBad) _ _ (fun z t => by simp) b
@[simp] theorem Block.stalls_segFence (b : Block) (old : Nat) : (b.stalls old).segFence = b.segFence := by
  unfold Block.stalls
  exact foldl_field (·.segFence) _ _ (fun z t => by simp) b
@[simp] theorem Block.stalls_ctrFence (b : Block) (old : Nat) : (b.stalls old).ctrFence = b.ctrFence := by
  unfold Block.stalls
  exact foldl_field (·.ctrFence) _ _ (fun z t => by simp) b
@[simp] theorem Block.stalls_time (b : Block) (old : Nat) : (b.stalls old).time = b.time := by
  unfold Block.stalls
  exact foldl_field (·.time) _ _ (fun z t => by simp) b
@[simp] theorem Block.stalls_host (b : Block) (old : Nat) : (b.stalls old).host = b.host := by
  unfold Block.stalls
  exact foldl_field (·.host) _ _ (fun z t => by simp) b
@[simp] theorem Block.stalls_req (b : Block) (old : Nat) : (b.stalls old).req = b.req := by
  unfold Block.stalls
  exact foldl_field (·.req) _ _ (fun z t => by simp) b
@[simp] theorem Block.stalls_dest (b : Block) (old : Nat) : (b.stalls old).dest = b.dest := by
  unfold Block.stalls
  exact foldl_field (·.dest) _ _ (fun z t => by simp) b
@[simp] theorem Block.stalls_mangle (b : Block) (old : Nat) : (b.stalls old).mangle = b.mangle := by
  unfold Block.stalls
  exact foldl_field (·.mangle) _ _ (fun z t => by simp) b
@[simp] theorem Block.stalls_fwd (b : Block) (old : Nat) : (b.stalls old).fwd = b.fwd := by
  unfold Block.stalls
  exact foldl_field (·.fwd) _ _ (fun z t => by simp) b
@[simp] theorem Block.stalls_ports (b : Block) (old : Nat) : (b.stalls old).ports = b.ports := by
  unfold Block.stalls
  exact foldl_field (·.ports) _ _ (fun z t => by simp) b
@[simp] theorem Block.stalls_lanes (b : Block) (old : Nat) : (b.stalls old).lanes = b.lanes := by
  unfold Block.stalls
  exact foldl_field (·.lanes) _ _ (fun z t => by simp) b
@[simp] theorem Block.stalls_boot (b : Block) (old : Nat) : (b.stalls old).boot = b.boot := by
  unfold Block.stalls
  exact foldl_field (·.boot) _ _ (fun z t => by simp) b
@[simp] theorem Block.stalls_rst (b : Block) (old : Nat) : (b.stalls old).rst = b.rst := by
  unfold Block.stalls
  exact foldl_field (·.rst) _ _ (fun z t => by simp) b
@[simp] theorem Block.stalls_obs (b : Block) (old : Nat) : (b.stalls old).obs = b.obs := by
  unfold Block.stalls
  exact foldl_field (·.obs) _ _ (fun z t => by simp) b
@[simp] theorem Block.stalls_rp (b : Block) (old : Nat) : (b.stalls old).rp = b.rp := by
  unfold Block.stalls
  exact foldl_field (·.rp) _ _ (fun z t => by simp) b
@[simp] theorem Block.stalls_free (b : Block) (old : Nat) : (b.stalls old).free = b.free := by
  unfold Block.stalls
  exact foldl_field (·.free) _ _ (fun z t => by simp) b
@[simp] theorem Block.clock_regs (b : Block) (now : Nat) : (b.clock now).regs = b.regs := by unfold Block.clock; simp
@[simp] theorem Block.clock_segmap (b : Block) (now : Nat) : (b.clock now).segmap = b.segmap := by unfold Block.clock; simp
@[simp] theorem Block.clock_segBad (b : Block) (now : Nat) : (b.clock now).segBad = b.segBad := by unfold Block.clock; simp
@[simp] theorem Block.clock_keyRoot (b : Block) (now : Nat) : (b.clock now).keyRoot = b.keyRoot := by unfold Block.clock; simp
@[simp] theorem Block.clock_ctrs (b : Block) (now : Nat) : (b.clock now).ctrs = b.ctrs := by unfold Block.clock; simp
@[simp] theorem Block.clock_ctrBad (b : Block) (now : Nat) : (b.clock now).ctrBad = b.ctrBad := by unfold Block.clock; simp
@[simp] theorem Block.clock_mirrorDue (b : Block) (now : Nat) : (b.clock now).mirrorDue = b.mirrorDue := by unfold Block.clock; simp
@[simp] theorem Block.clock_groups (b : Block) (now : Nat) : (b.clock now).groups = b.groups := by unfold Block.clock; simp
@[simp] theorem Block.clock_groupBad (b : Block) (now : Nat) : (b.clock now).groupBad = b.groupBad := by unfold Block.clock; simp
@[simp] theorem Block.clock_segFence (b : Block) (now : Nat) : (b.clock now).segFence = b.segFence := by unfold Block.clock; simp
@[simp] theorem Block.clock_ctrFence (b : Block) (now : Nat) : (b.clock now).ctrFence = b.ctrFence := by unfold Block.clock; simp
@[simp] theorem Block.clock_host (b : Block) (now : Nat) : (b.clock now).host = b.host := by unfold Block.clock; simp
@[simp] theorem Block.clock_req (b : Block) (now : Nat) : (b.clock now).req = b.req := by unfold Block.clock; simp
@[simp] theorem Block.clock_dest (b : Block) (now : Nat) : (b.clock now).dest = b.dest := by unfold Block.clock; simp
@[simp] theorem Block.clock_mangle (b : Block) (now : Nat) : (b.clock now).mangle = b.mangle := by unfold Block.clock; simp
@[simp] theorem Block.clock_fwd (b : Block) (now : Nat) : (b.clock now).fwd = b.fwd := by unfold Block.clock; simp
@[simp] theorem Block.clock_ports (b : Block) (now : Nat) : (b.clock now).ports = b.ports := by unfold Block.clock; simp
@[simp] theorem Block.clock_lanes (b : Block) (now : Nat) : (b.clock now).lanes = b.lanes := by unfold Block.clock; simp
@[simp] theorem Block.clock_boot (b : Block) (now : Nat) : (b.clock now).boot = b.boot := by unfold Block.clock; simp
@[simp] theorem Block.clock_rst (b : Block) (now : Nat) : (b.clock now).rst = b.rst := by unfold Block.clock; simp
@[simp] theorem Block.clock_obs (b : Block) (now : Nat) : (b.clock now).obs = b.obs := by unfold Block.clock; simp
@[simp] theorem Block.clock_rp (b : Block) (now : Nat) : (b.clock now).rp = b.rp := by unfold Block.clock; simp
@[simp] theorem Block.clock_free (b : Block) (now : Nat) : (b.clock now).free = b.free := by unfold Block.clock; simp

end Sys2Proof.Machine
end

