-- ==== Sys2Proof/Laws/Registers.lean ====
section
/-!
SUPPORT. Registers: what a read after a write gives, and which registers a count leaves.
-/

namespace Sys2Proof.Machine

@[simp] theorem Block.peek_poke (b : Block) (w : Nat) (v : Word) : (b.poke w v).peek w = v := Tbl.get_set _ _ _ _

@[simp] theorem Block.peek_poke_ne (b : Block) {w w' : Nat} (v : Word) (h : w' ≠ w) : (b.poke w v).peek w' = b.peek w' :=
  Tbl.get_set_ne _ _ _ _ h

theorem Block.peek_setRf (b : Block) (w hi lo x : Nat) : (b.setRf w hi lo x).peek w = setFld (b.peek w) hi lo x :=
  Block.peek_poke _ _ _

@[simp] theorem Block.peek_setRf_ne (b : Block) {w w' : Nat} (hi lo x : Nat) (h : w' ≠ w) :
    (b.setRf w hi lo x).peek w' = b.peek w' := Block.peek_poke_ne _ _ h

/-- A register's field reads as what was last written to it. -/
@[simp] theorem Block.rf_setRf (b : Block) (w : Nat) {hi lo : Nat} (x : Nat) (h : lo ≤ hi + 1) (hw : hi < 64) :
    (b.setRf w hi lo x).rf w hi lo = x % 2 ^ (hi + 1 - lo) := by
  unfold Block.rf
  rw [Block.peek_setRf, fld_setFld _ _ h hw]

@[simp] theorem Block.rf_setRf_above (b : Block) (w : Nat) {hi lo hi' lo' : Nat} (x : Nat) (h : lo ≤ hi + 1) (hw : hi < 64)
    (k : hi < lo') : (b.setRf w hi lo x).rf w hi' lo' = b.rf w hi' lo' := by
  unfold Block.rf
  rw [Block.peek_setRf, fld_setFld_above _ _ h hw k]

@[simp] theorem Block.rf_setRf_below (b : Block) (w : Nat) {hi lo hi' lo' : Nat} (x : Nat) (h : lo ≤ hi + 1) (hw : hi < 64)
    (k : hi' < lo) : (b.setRf w hi lo x).rf w hi' lo' = b.rf w hi' lo' := by
  unfold Block.rf
  rw [Block.peek_setRf, fld_setFld_below _ _ h hw k]

@[simp] theorem Block.rf_setRf_ne (b : Block) {w w' : Nat} (hi lo x hi' lo' : Nat) (h : w' ≠ w) :
    (b.setRf w hi lo x).rf w' hi' lo' = b.rf w' hi' lo' := by
  unfold Block.rf
  rw [Block.peek_setRf_ne _ _ _ _ h]

@[simp] theorem Block.rf_poke (b : Block) (w : Nat) (v : Word) (hi lo : Nat) : (b.poke w v).rf w hi lo = fld v hi lo := by
  unfold Block.rf
  rw [Block.peek_poke]

@[simp] theorem Block.rf_poke_ne (b : Block) {w w' : Nat} (v : Word) (hi lo : Nat) (h : w' ≠ w) :
    (b.poke w v).rf w' hi lo = b.rf w' hi lo := by
  unfold Block.rf
  rw [Block.peek_poke_ne _ _ h]

@[simp] theorem Block.peek_ivAdd (b : Block) (k n w : Nat) : (b.ivAdd k n).peek w = b.peek w := rfl

@[simp] theorem Block.peek_bumpN_ne (b : Block) {w w' : Nat} (n : Nat) (h : w' ≠ w) : (b.bumpN w n).peek w' = b.peek w' := by
  unfold Block.bumpN
  split
  · rfl
  · rw [Block.peek_ivAdd, Block.peek_poke_ne _ _ h]

@[simp] theorem Block.peek_bump_ne (b : Block) {w w' : Nat} (h : w' ≠ w) : (b.bump w).peek w' = b.peek w' :=
  Block.peek_bumpN_ne b 1 h

/-- An event counts one more in its counter (§0.6). -/
@[simp] theorem Block.peek_bump (b : Block) (w : Nat) : (b.bump w).peek w = satAdd (b.peek w) 1 := by
  unfold Block.bump Block.bumpN
  simp

@[simp] theorem Block.rf_bump_ne (b : Block) {w w' : Nat} (hi lo : Nat) (h : w' ≠ w) : (b.bump w).rf w' hi lo = b.rf w' hi lo := by
  unfold Block.rf
  rw [Block.peek_bump_ne _ h]

@[simp] theorem Block.peek_pageErr_ne (b : Block) {page w' : Nat} (kind word_ : Nat) (h : w' ≠ regAt page 0x018) :
    (b.pageErr page kind word_).peek w' = b.peek w' := by
  unfold Block.pageErr Block.pageErrN
  simp [h]

@[simp] theorem Block.rf_pageErr_ne (b : Block) {page w' : Nat} (kind word_ hi lo : Nat) (h : w' ≠ regAt page 0x018) :
    (b.pageErr page kind word_).rf w' hi lo = b.rf w' hi lo := by
  unfold Block.rf
  rw [Block.peek_pageErr_ne _ _ _ h]

end Sys2Proof.Machine
end

