-- ==== Sys2Proof/Tests/Slice0.lean ====
section
/-!
SUPPORT. Tests of the model, each on one step at most: ill-formed commands are refused, worked examples of the spec come out, and
for every statement with hypotheses (test_hyp_<statement>) a state and operands meet them, clause by clause.
-/

namespace Sys2Proof.Tests

open Sys2Proof Sys2Proof.Machine

set_option maxRecDepth 100000
set_option Elab.async false

/-- The state after reset, changed by `f`. -/
def base (f : Block → Block := id) : State := { pending := [], blk := f State.reset.blk }

/-- Start-up in step `k`. -/
def stage (k : Nat) (f : Block → Block := id) : State := base fun b => f (b.setRf wStartup 63 60 k)

/-- Start-up complete: the compute domain up, all twelve engines good. -/
def up (f : Block → Block := id) : State :=
  stage 11 fun b => f { (b.setRf wPatch0 11 0 0xFFF) with rst := { b.rst with down := false, closed := false, level := 0 } }

/-- A request header of opcode `op` from chip 9, context 7, with `low` in [61:0]. -/
def pk (op low : Nat) (data : List Slot := []) : Packet :=
  { hdr := BitVec.ofNat 128 (put op 6 122 + put 0 15 105 + put 9 15 90 + put 7 12 78 + put low 62 0), data }

/-- A TC2 header from chip 3. -/
def rp (op low : Nat) (data : List Slot := []) : Packet :=
  { hdr := BitVec.ofNat 128 (put op 6 122 + put 3 15 90 + put low 90 0), data }

/-- A port in the state `q`, sealed or not, with every pilot lane powered. -/
def port (q : PortSt) (f : Block → Block := id) : State :=
  up fun b => f { b with ports := b.ports.set 1 q, lanes := b.lanes.map fun l => { l with powered := true } }

/-- A seal of four chips along x. -/
def sealed (b : Block) : Block := (b.setRf wSealLeft 63 63 1).setRf wSeal 63 59 3

/-! ### Well-formed commands -/

/-- `below`: SRAM_SELF_TEST names twelve engines. -/
theorem test_wf_below : Instr.wf (.sramSelfTest 4096 0 false) = false := by decide
/-- `isPort`: six ports. -/
theorem test_wf_port : Instr.wf (.bitslipDone 6) = false := by decide
/-- `isStream`: 256 streams (R84). -/
theorem test_wf_stream : Instr.wf (.nop 256) = false := by decide
/-- `isUnit`: twelve engines, twelve host channels. -/
theorem test_wf_unit : Instr.wf (.mangleUnitDone 12 false) = false := by decide
/-- `isFlowClass`: only TC3, TC4 and TC5 have flows. -/
theorem test_wf_flow_class : Instr.wf (.fsyncRetry 0 2) = false := by decide
/-- `wholePacket`: a SIGNAL carries one data slot. -/
theorem test_wf_packet : Instr.wf (.signal (pk 5 0) {}) = false := by decide
/-- `isAir`: sixteen lanes bring symbols. -/
theorem test_wf_air : Instr.wf (.idleFlit 0 [] 0) = false := by decide
/-- `wholeBeat`: a beat has four DARN words. -/
theorem test_wf_beat : Instr.wf (.adata 0 0 { tag := 0 } .good []) = false := by decide
/-- `isChunk`: 1 to 256 bytes. -/
theorem test_wf_chunk : Instr.wf (.imageData 0 [] 0) = false := by decide
/-- `isAir`: PAM4 has four levels. -/
theorem test_wf_levels : Instr.wf (.orderStepEnd 0 ([4] :: List.replicate 15 []) 0) = false := by decide
/-- `perLane`: sixteen data lanes. -/
theorem test_wf_lane : Instr.wf (.fomWindowEnd 0 [] []) = false := by decide
/-- `isMessage`: a control block and at most 8 data blocks. -/
theorem test_wf_message : Instr.wf (.pilotIdle 0 []) = false := by decide
/-- `isClasses`: eight traffic classes. -/
theorem test_wf_classes : Instr.wf (.flitSend 0 [8]) = false := by decide
/-- `knownEntry`: eight windows of the program store. -/
theorem test_wf_entry : Instr.wf (.indexedEntryRead ⟨{ what := .pstore 8, wchk := 0 }, .good⟩) = false := by decide
/-- A well-formed command is let through. -/
theorem test_wf_good : Instr.wf (.signal (pk 5 0 [1]) {}) = true := by decide

/-! ### Known answers (Table 5.10) -/

/-- One element through a reducing-store unit: OP, wire and memory format, SAT, scale, draw, `w`, `m`. -/
def unit1 (op wire mem : Nat) (sat : Bool) (ab : Nat) (draw : Option Nat) (w m : Nat) : Nat :=
  let p : Profile := { profileOf (put op 4 59 + put wire 4 55 + put mem 4 51 + put 0xF 4 47 + put (b2n sat) 1 45) 0 with a := ab, b := ab }
  let md : Mode := { stoch := draw.isSome, sat, fixed := draw, seed := 0, pos := 0 }
  ofBytes (reduceUnit p md false (toBytes (fmtWidth wire / 8) w) (toBytes (fmtWidth mem / 8) m)).landed

/-- 1.0 in binary32. -/
def oneF : Nat := 0x3F800000

/-- Vectors 1 to 8. -/
theorem test_known_sums : unit1 1 2 2 false oneF none 0x3F80 0x3F80 = 0x4000 ∧ unit1 1 2 2 false oneF none 0x3B80 0x3F80 = 0x3F80
    ∧ unit1 1 2 2 false oneF none 0x3B80 0x3F81 = 0x3F82 ∧ unit1 1 2 2 false oneF none 0x7F7F 0x7F7F = 0x7F80
    ∧ unit1 1 2 2 true oneF none 0x7F7F 0x7F7F = 0x7F7F ∧ unit1 1 2 2 false oneF none 0x7FA1 0x3F80 = 0x7FC0
    ∧ unit1 1 2 2 false oneF none 0x7F80 0xFF80 = 0x7FC0 ∧ unit1 1 2 2 false oneF none 0x0001 0x0001 = 0x0002 := by decide +kernel

/-- Vectors 9 to 17. -/
theorem test_known_rounding : unit1 1 2 2 false oneF (some 0x8000) 0x3B80 0x3F80 = 0x3F81
    ∧ unit1 1 2 2 false oneF (some 0x7FFF) 0x3B80 0x3F80 = 0x3F80 ∧ unit1 2 0 0 false 0x3F000000 none 0x40400000 0x3F800000 = 0x40000000
    ∧ unit1 0 2 1 false oneF none 0x3F80 0 = 0x3C00 ∧ unit1 0 2 1 false oneF none 0x4780 0 = 0x7C00
    ∧ unit1 0 2 1 true oneF none 0x4780 0 = 0x7BFF ∧ unit1 0 4 3 false oneF none 0x7B 0 = 0x7F
    ∧ unit1 0 4 3 true oneF none 0x7B 0 = 0x7E ∧ unit1 0 4 3 false oneF none 0x35 0 = 0x2A := by decide +kernel

/-- Vectors 18 to 22. -/
theorem test_known_compares : unit1 3 3 3 false oneF none 0x00 0x80 = 0x00 ∧ unit1 5 2 2 false oneF none 0xC000 0x3FC0 = 0xC000
    ∧ unit1 1 0xB 0xB false oneF none 0x7F 0x01 = 0x80 ∧ unit1 1 0xB 0xB true oneF none 0x7F 0x01 = 0x7F
    ∧ unit1 8 0xC 0xC false oneF none 0x0123456789ABCDEF 0xFFFF0000FFFF0000 = 0xFEDC45677654CDEF := by decide +kernel

/-- Step 2 of a slot's header: OPCODE in [127:122], DST in [119:105], SRC_CHIP in [104:90], SRC_CTX in [89:78] (Table 3.5). -/
theorem test_header_fields : let h := (pk 0x05 (put 3 16 46)).hdr
    hOp h = 5 ∧ hDst h = 0 ∧ hSrc h = 9 ∧ hCtx h = 7 ∧ hCtr h = 3 ∧ hSlots h = 1 ∧ opClass 5 = 5 := by decide +kernel

/-- The CRC-8 of Mildom: polynomial 0x07, initial value 0 (R513); its check value over the ASCII digits 1 to 9 is 0xF4. -/
theorem test_crc8 : crc8 [0x31, 0x32, 0x33, 0x34, 0x35, 0x36, 0x37, 0x38, 0x39] = 0xF4 := by decide +kernel

/-- The Gray map (R378). -/
theorem test_levels : [level 0 0, level 0 1, level 1 1, level 1 0] = [0, 1, 2, 3]
    ∧ ((List.range 4).map fun l => level (levelBits l) (levelBits l / 2)) = [0, 1, 2, 3] := by decide

/-- The first two symbols of lane L6 of a marker codeword, which carries its message first (R340, Table 10.3), and its fields. -/
theorem test_marker_codeword : isMarkerE2 6 (laneSymbols (markerMsg 77 5) 6) = true ∧ isMarkerE2 7 (laneSymbols (markerMsg 77 5) 6) = false
    ∧ markerFields (markerMsg 77 5) = (77, 5, 2) := by decide +kernel

/-- The marker word of L3 for FLIT_PTR 9 and GROUP 2 (Table 10.4), and parity bits of words (R342). -/
theorem test_marker_word : markerWord 3 9 2 = 0xB4E1300480000002 ∧ withParity 1 = 2 ^ 64 + 1 ∧ withParity 3 = 3 := by decide +kernel

/-- An identity (R394) as it comes, and as a lane of the other polarity brings it (R395). -/
theorem test_identity : readIdentity (toLevels 32 (identity 11 4)) = some (11, false)
    ∧ readIdentity ((toLevels 32 (identity 11 4)).map flipLevel) = some (11, true) := by decide +kernel

/-- The state after reset is what the release of cold reset leaves, both straps low (R416, R510; log entry 6). -/
theorem test_reset : (State.reset.blk.coldAssert.coldRelease false 0 0 0) = State.reset.blk := by decide +kernel


/-! ### Hypotheses of the statements -/

/-- COLD_RST_N is held low. -/
def held : State := base Block.coldAssert

theorem test_hyp_everyCommandCompletes : ¬held.live ∧ Instr.nop 3 ≠ .coldRstAssert
    ∧ ∀ csel x y prov, Instr.nop 3 ≠ .coldRstRelease csel x y prov := ⟨by decide +kernel, by decide, nofun⟩

theorem test_hyp_requestsAbsorbed : base.carries ∧ base.blk.rst.down = true
    ∧ (∀ op ∈ [0x01, 0x02, 0x03, 0x04, 0x05, 0x06, 0x07, 0x08, 0x09, 0x0A, 0x0B, 0x0C, 0x0D, 0x0E, 0x0F, 0x10, 0x11, 0x12, 0x13, 0x14,
        0x15, 0x16, 0x17, 0x18, 0x19, 0x1A, 0x1B, 0x1C, 0x1D, 0x1E, 0x1F],
      hOp (pk op 0).hdr = op ∧ ¬(bit (pk op 0).hdr 120 ≠ (base.blk.fwd.current == 1)
        ∧ base.blk.fwd.newSeen.contains (hSrc (pk op 0).hdr, opClass (hOp (pk op 0).hdr)) = true)) := by decide +kernel

/-- The key root written, and a NOP in front. -/
def rooted : State := { pending := [.thermtrip], blk := { up.blk with keyRoot := some 5 } }

theorem test_hyp_keyRootKept : up.carries ∧ up.blk.keyRoot = none ∧ up.blk.rst.down = false ∧ rooted.carries ∧ rooted.blk.keyRoot = some 5
    ∧ (∀ c rest, rooted.pending = c :: rest → c ≠ .coldRstAssert) ∧ ∃ t, step rooted = .next t :=
  ⟨by decide +kernel, by decide +kernel, by decide +kernel, by decide +kernel, rfl, by rintro c rest h; cases h; decide, _, rfl⟩

/-- A written variant code, and a second write of it in front. -/
def fused : State := { pending := [.fuseWrite 2], blk := { up.blk with boot := { up.blk.boot with fuseVariant := some 0 } } }

theorem test_hyp_fuseVariantKept : fused.blk.boot.fuseVariant = some 0 ∧ ∃ t, step fused = .next t := ⟨rfl, _, rfl⟩

theorem test_hyp_coldResetCommands : ¬held.live ∧ up.carries := by decide +kernel

/-- Start-up at steps 6 and 8, with settled ports; at step 2 in a block reset. -/
def atStep6 : State := stage 6 fun b => { b with boot := { b.boot with reached := 63 } }
def atStep2 : State := stage 2 fun b => { b with rst := { b.rst with level := 4 } }
def overdue : State := stage 2 fun b => { b with rst := { b.rst with level := 5 } }
def atStep8 : State := stage 8

theorem test_hyp_startupRuns : (stage 1).carries ∧ (stage 1).blk.bootStage = 1 ∧ (stage 2).carries ∧ (stage 2).blk.bootStage = 2
    ∧ (stage 2).blk.rst.level ≠ 4
    ∧ 10 ≤ popCount 12 (({ (stage 2).blk with boot := { (stage 2).blk.boot with failed := 0 } }).enginesGood)
    ∧ (stage 3).carries ∧ (stage 3).blk.bootStage = 3 ∧ (stage 3).blk.boot.checking = false ∧ (stage 3).blk.boot.offer = none
    ∧ (stage 3).blk.boot.offerOk = false ∧ (stage 3).blk.rf wSealLeft 63 63 = 0
    ∧ popCount 12 (({ (stage 2).blk with boot := { (stage 2).blk.boot with failed := 7 } }).enginesGood) < 10
    ∧ (stage 1).blk.boot.early = none ∧ overdue.carries ∧ overdue.blk.bootStage = 2 ∧ overdue.blk.rst.level = 5
    ∧ atStep2.carries ∧ atStep2.blk.bootStage = 2 ∧ atStep2.blk.rst.level = 4
    ∧ 10 ≤ popCount 12 (({ atStep2.blk with boot := { atStep2.blk.boot with failed := 0 } }).enginesGood)
    ∧ (let s := stage 3 fun b => b.setRf wSealLeft 63 63 1
       s.carries ∧ s.blk.bootStage = 3 ∧ s.blk.boot.checking = false ∧ s.blk.boot.offer = none ∧ s.blk.boot.offerOk = false
       ∧ s.blk.rf wSealLeft 63 63 = 1)
    ∧ popCount 12 (({ atStep8.blk with boot := { atStep8.blk.boot with failed := atStep8.blk.boot.sramFailed ||| 7 } }).enginesGood) < 10
    ∧ atStep6.carries ∧ atStep6.blk.bootStage = 6 ∧ (∀ p < 6, atStep6.blk.settled p = true)
    ∧ atStep8.carries ∧ atStep8.blk.bootStage = 8 ∧ atStep8.blk.phase ≠ 2 ∧ atStep8.blk.phase ≠ 3 ∧ atStep8.blk.phase ≠ 4
    ∧ 10 ≤ popCount 12 (({ atStep8.blk with boot := { atStep8.blk.boot with failed := atStep8.blk.boot.sramFailed } }).enginesGood) := by
  decide +kernel

/-- The block has its Mildom address; in the boot wait an image is offered, and in the second state its check runs. -/
def addressed : State := up fun b => { b with boot := { b.boot with addr := some 5 } }
def offered : State := stage 3 fun b => { b with boot := { b.boot with addr := some 5, offer := some 100 } }
def checking : State := stage 3 fun b => { b with boot := { b.boot with addr := some 5, offer := some 100, checking := true } }
/-- A management image of 4 words of code; the check of it once all its bytes have come. -/
def image : List Byte := toBytes 8 (0xF1A6 * 2 ^ 48 + 2 ^ 40 + 77) ++ toBytes 8 4 ++ List.replicate 496 0 ++ [1, 2, 3, 4]
def whole : State := stage 3 fun b =>
  { b with boot := { b.boot with addr := some 5, offer := some 516, offered := [(0, image)], checking := true } }

theorem test_hyp_mildomCommands : addressed.carries ∧ addressed.blk.boot.restarting = false ∧ addressed.blk.boot.addr ≠ none
    ∧ addressed.blk.boot.checking = false ∧ addressed.blk.rst.level < 3
    ∧ offered.carries ∧ offered.blk.boot.restarting = false ∧ offered.blk.boot.addr ≠ none ∧ offered.blk.boot.checking = false
    ∧ offered.blk.bootStage = 3 ∧ offered.blk.boot.offer ≠ none ∧ ([1, 2, 3] : List Byte) ≠ [] ∧ ([1, 2, 3] : List Byte).length ≤ 256
    ∧ checking.carries ∧ checking.blk.boot.restarting = false ∧ checking.blk.boot.addr ≠ none ∧ checking.blk.boot.checking = true
    ∧ none ∈ checking.blk.offeredBytes ∧ checking.blk.imageCode 1 checking.blk.offeredImage false true true = 1 ∧ addressed.blk.bootStage ≠ 3 ∧ whole.carries ∧ whole.blk.boot.restarting = false
    ∧ whole.blk.boot.addr ≠ none ∧ whole.blk.boot.checking = true ∧ none ∉ whole.blk.offeredBytes
    ∧ whole.blk.imageCode 1 whole.blk.offeredImage false true true = 0 := by
  and_intros <;> decide +kernel

/-- A complete image but for one byte, which fails the third test; a command byte outside Table 14.2. -/
theorem test_hyp_mildomCommands_missing :
    (let s := stage 3 fun b => { b with boot := { b.boot with addr := some 5, offer := some 517, offered := [(0, image)], checking := true } }
     s.carries ∧ none ∈ s.blk.offeredBytes ∧ s.blk.imageCode 1 s.blk.offeredImage false true true ≠ 1
     ∧ s.blk.imageCode 1 s.blk.offeredImage false true true ≠ 2)
    ∧ (let q : MildomReq := { code := 9, crc := crc8 [9#8] }; q.code < 256 ∧ 6 < q.code ∧ q.crc = crc8 (BitVec.ofNat 8 q.code :: q.data)) := by
  and_intros <;> decide +kernel

theorem test_hyp_jtagInstructions : up.carries ∧ up.blk.keyRoot = none ∧ 1 ≤ 2 ∧ up.blk.boot.fuseVariant = none ∧ 2 < 3
    ∧ popCount 12 (({ up.blk with boot := { up.blk.boot with failed := up.blk.boot.failed ||| 0 } }).enginesGood) = 12
    ∧ popCount 12 (({ up.blk with boot := { up.blk.boot with failed := up.blk.boot.failed ||| 7 } }).enginesGood) < 10
    ∧ rooted.carries ∧ rooted.blk.keyRoot ≠ none ∧ bitN 2 1 = true := by decide +kernel

/-- An EXTEST instruction is in force. -/
theorem test_hyp_jtagInstructions_extest :
    let s := up fun b => { b with boot := { b.boot with extest := true } }
    s.live ∧ s.blk.boot.extest = true := by decide +kernel

theorem test_hyp_registerWrites : up.carries ∧ up.blk.rst.down = false ∧ (regDef (sg 0x040)).isSome = true ∧ (regDef (ct 0x040)).isSome = true
    ∧ (regDef (ct 0x060)).isSome = true ∧ (regDef (rt 0x058)).isSome = true ∧ (regDef (rt 0x068)).isSome = true
    ∧ (regDef (cx 0x040)).isSome = true ∧ (regDef (hc 0 0x838)).isSome = true ∧ (regDef (tr 0x048)).isSome = true
    ∧ (regDef (fo 0x040)).isSome = true ∧ isReg (sg 0x040) = true ∧ anyWriter (sg 0x040) = false
    ∧ 254 % 256 ≠ rpCheck (sg 0x040 % 65536) 5 ∧ rpCheck (sg 0x048 % 65536) 5 % 256 = rpCheck (sg 0x048 % 65536) 5
    ∧ isReg (sg 0x048) = true := by decide +kernel

/-- Registers with no rule of their own, on pages of every kind. -/
theorem test_hyp_registerWrites_plain : ∀ w ∈ [sg 0x040, ct 0x060, rt 0x068, hc 0 0x838, lk 2 0x050, ln 3 0x048, tr 0x048],
    ∃ d, plainReg w d := by
  have h : ∀ w ∈ [sg 0x040, ct 0x060, rt 0x068, hc 0 0x838, lk 2 0x050, ln 3 0x048, tr 0x048],
      (regDef w).isSome = true ∧ ((pageKind (w / 512)).all fun k => decide (w % 512 * 8 ∉ ruledOffs k)) = true := by decide +kernel
  intro w hw
  obtain ⟨h1, h2⟩ := h w hw
  obtain ⟨d, hd⟩ := Option.isSome_iff_exists.1 h1
  refine ⟨d, hd, fun k hk => ?_⟩
  simpa [hk] using h2

theorem test_hyp_writeFrames : up.carries := by decide +kernel

/-- Index registers at 5 and at their end, all banks good. -/
def indexed : State :=
  up fun b => ((b.poke (sg 0x040) (word (2 ^ 63 + 5))).poke (sg 0x070) (word (2 ^ 64 - 1))).poke (ct 0x040) (word (2 ^ 63 + 65535))

/-- The bank of granule 5 fused off. -/
def noBank : State := up fun b => (b.poke (sg 0x040) 5).poke (sg 0x070) (word (2 ^ 64 - 33))

theorem test_hyp_indexedReads : indexed.carries ∧ indexed.blk.rst.down = false
    ∧ (let i := indexed.blk.rf (sg 0x040) 19 0; indexed.blk.rf (sg 0x070) (i % 64) (i % 64) = 1) ∧ 7 < 8
    ∧ indexed.blk.ctrBad.contains (indexed.blk.rf (ct 0x040) 15 0) = false
    ∧ noBank.carries ∧ noBank.blk.rst.down = false
    ∧ (let i := noBank.blk.rf (sg 0x040) 19 0; noBank.blk.rf (sg 0x070) (i % 64) (i % 64) = 0) := by decide +kernel

/-- The scratchpad lies at the start of host memory. -/
def scratch : State := up fun b => (b.poke (sg 0x060) 0).poke (sg 0x068) (word (2 ^ 30))

theorem test_hyp_segmapEntryWrites : indexed.carries ∧ indexed.blk.rst.down = false
    ∧ (let i := indexed.blk.rf (sg 0x040) 19 0
       indexed.blk.rf (sg 0x070) (i % 64) (i % 64) = 1 ∧ indexed.blk.segBad.contains (segWord i) = false)
    ∧ (let v : Word := 0x8000000000000000
       bit v 63 = true ∧ fld v 62 61 = 0 ∧ indexed.blk.inScratch (indexed.blk.hpa v 0) = false)
    ∧ (let v : Word := 0xE000000000000000
       bit v 63 = true ∧ fld v 62 61 = 3)
    ∧ (let v : Word := 0xA000000000000000
       bit v 63 = true ∧ fld v 62 61 = 1 ∧ indexed.blk.inScratch (indexed.blk.hpa v 0) = false)
    ∧ (let v : Word := 0x8000000000000000
       scratch.carries ∧ scratch.blk.rst.down = false ∧ bit v 63 = true ∧ fld v 62 61 = 0 ∧ scratch.blk.inScratch (scratch.blk.hpa v 0) = true)
    ∧ (let i := noBank.blk.rf (sg 0x040) 19 0; noBank.blk.rf (sg 0x070) (i % 64) (i % 64) = 0)
    ∧ (let s := { indexed with blk := { indexed.blk with segBad := [5] } }
       s.carries ∧ s.blk.segBad.contains (segWord (s.blk.rf (sg 0x040) 19 0)) = true ∧ segWord 69 = segWord 5 ∧ segWord 6 ≠ segWord 5) := by
  decide +kernel

def fencing : State := up fun b => b.setRf (sg 0x050) 63 63 0

theorem test_hyp_segmapFenceAndKeys : rooted.carries ∧ rooted.blk.keyRoot = some 5 ∧ up.carries ∧ up.blk.rst.down = false ∧ fencing.carries ∧ fencing.blk.rf (sg 0x050) 63 63 = 0
    ∧ (∀ x ∈ fencing.blk.segFence, fencing.blk.fenceOpen x = false) ∧ up.blk.keyRoot = none ∧ rooted.blk.rst.down = false := by
  decide +kernel

/-- KB_CTRL on, counter 0 poisoned in the second state, a mirror write due in the third, a fence running in the fourth. -/
def kernels : State := up fun b => b.poke (hc 0 0x838) (word (2 ^ 63 + 7))
def poisoned : State := up fun b => { b with ctrBad := [0] }
def mirrors : State :=
  up fun b => { (b.poke (ct 0x078) (word (2 ^ 19 * 5))).poke (ct 0x080) (word (2 ^ 64 - 1)) with mirrorDue := [9, 10], ctrs := [(9, 3)] }
def ctrFencing : State := up fun b => b.setRf (ct 0x070) 63 63 0
/-- The fence waits for the mirror write due of counter 9. -/
def ctrWaits : State := up fun b => { b.setRf (ct 0x070) 63 63 0 with mirrorDue := [9], ctrFence := [9] }

theorem test_hyp_counterPage : kernels.carries ∧ kernels.blk.rst.down = false ∧ kernels.blk.ctrBad.contains (kernels.blk.rf (ct 0x040) 15 0) = false
    ∧ poisoned.carries ∧ poisoned.blk.rst.down = false ∧ poisoned.blk.ctrBad.contains (poisoned.blk.rf (ct 0x040) 15 0) = true
    ∧ bit (0 : Word) 0 = false ∧ up.blk.rf (hc 0 0x838) 63 63 = 0
    ∧ bit (1 : Word) 0 = true ∧ kernels.blk.rf (hc 0 0x838) 63 63 = 1 ∧ kernels.blk.rf (hc 0 0x838) 15 0 ≠ 0
    ∧ kernels.blk.ctrBad.contains (kernels.blk.rf (hc 0 0x838) 15 0) = false
    ∧ ctrFencing.carries ∧ ctrFencing.blk.rst.down = false ∧ ctrFencing.blk.rf (ct 0x070) 63 63 = 0 ∧ ctrFencing.blk.ctrFence = []
    ∧ ctrWaits.carries ∧ ctrWaits.blk.rst.down = false ∧ ctrWaits.blk.rf (ct 0x070) 63 63 = 0
    ∧ (∃ x ∈ ctrWaits.blk.ctrFence, x < 65536 ∧ x ∈ ctrWaits.blk.mirrorDue)
    ∧ (let s := up fun b => { b with mirrorDue := [9] }
       s.carries ∧ s.blk.rst.down = false ∧ 9 ∈ s.blk.mirrorDue ∧ s.blk.mirrored 9 = false)
    ∧ mirrors.carries ∧ mirrors.blk.rst.down = false ∧ 9 ∈ mirrors.blk.mirrorDue ∧ mirrors.blk.ctrBad.contains 9 = false
    ∧ mirrors.blk.mirrored 9 = true := by decide +kernel

/-- Engine 4 quiesced; a microcode load whose image is here; a unit held. -/
def quiet4 : State := up fun b => b.setRf (mg 4 0x010) 1 1 1
def ucImage : List Byte :=
  toBytes 8 (0xF1A6 * 2 ^ 48 + 2 * 2 ^ 40 + 77) ++ toBytes 8 4 ++ List.replicate 496 0 ++ [1, 2, 3, 4]
def loading4 : State :=
  up fun b => { b with mangle := { b.mangle with engines := b.mangle.engines.set 4 { loading := true, imageRead := true, image := ucImage } } }
def heldUnit : Held :=
  { unit := { kind := .reduce 1, w := [], m := [], stream := 0 }, landed := [], sent := [], overs := 0, nan := 0, nonfinite := 0, cycles := 1 }
def holding4 : State := up fun b => { b with mangle := { b.mangle with engines := b.mangle.engines.set 4 { held := some heldUnit } } }

def lost4 : State := up fun b => { b with mangle := { b.mangle with
  engines := b.mangle.engines.set 4 { held := some { heldUnit with unit := { heldUnit.unit with bad := true } } } } }

theorem test_hyp_mangleEngines : up.carries ∧ up.blk.rst.down = false ∧ quiet4.carries ∧ quiet4.blk.rst.down = false
    ∧ quiet4.blk.engineState 4 = 2 ∧ quiet4.blk.engineState 3 ≠ 2 ∧ quiet4.blk.engineState 3 ≠ 5
    ∧ loading4.carries ∧ (loading4.blk.engine 4).loading = true ∧ (loading4.blk.engine 4).imageRead = true
    ∧ loading4.blk.imageCode 2 (loading4.blk.engine 4).image (loading4.blk.engine 4).imageBad true true = 0
    ∧ bitN loading4.blk.boot.sramFailed 4 = false
    ∧ loading4.blk.imageCode 2 (loading4.blk.engine 4).image (loading4.blk.engine 4).imageBad false true ≠ 0
    ∧ lost4.carries ∧ (lost4.blk.engine 4).held = some { heldUnit with unit := { heldUnit.unit with bad := true } }
    ∧ holding4.carries ∧ (holding4.blk.engine 4).held = some heldUnit ∧ heldUnit.unit.bad = false := by decide +kernel

/-- Every host channel disabled; every one but channel 3. -/
def chansOff : State := up fun b => (List.range 12).foldl (fun b n => b.setRf (hc n 0x010) 1 0 0) b
def chan3 : State := up fun b => (List.range 12).foldl (fun b n => if n == 3 then b else b.setRf (hc n 0x010) 1 0 0) b

theorem test_hyp_hostChannelRegisters : up.carries ∧ up.blk.rst.down = false ∧ up.blk.rf (hc 3 0x010) 0 0 = 1 ∧ fld (3 : Word) 0 0 = 1
    ∧ chan3.carries ∧ chan3.blk.rst.down = false ∧ fld (2 : Word) 0 0 = 0 ∧ (∀ k < 12, k ≠ 3 → chan3.blk.rf (hc k 0x010) 0 0 ≠ 1)
    ∧ chansOff.carries ∧ chansOff.blk.rst.down = false ∧ chansOff.blk.chansQuiet = true ∧ 12 ≤ fld (14 : Word) 4 0 ∧ fld (14 : Word) 4 0 ≤ 21
    ∧ (∀ i, i < 16 → fld (0x1234 : Word) (4 * i + 3) (4 * i) ≤ 11) ∧ up.blk.chansQuiet = false
    ∧ fld (3 : Word) 4 0 < 12 ∧ 11 < fld (12 : Word) 3 0 := by decide +kernel

/-- One open access on channel 2, tag 5. -/
def open_ (t : Txn) (left : Nat) : State := up fun b => { b with host := { b.host with
  out := [t], nextJob := 1, jobs := [{ id := 0, kind := .record, addr := 0, len := 8, left }] } }
def txn (kind : HKind) (beats : Nat) : Txn :=
  let t : Txn := { kind, unc := false, ctx := 0, addr := 0, beats, home := 2, chan := 2, tag := 5, job := 0, part := 0, start := 10 }
  { t with taken := t.xfers }

theorem test_hyp_hostResponses :
    (open_ (txn .rd 2) 1).carries ∧ (open_ (txn .rd 2) 1).blk.txn? 2 5 = some (txn .rd 2) ∧ (txn .rd 2).dead = false
    ∧ (txn .rd 2).got.length + 1 < (txn .rd 2).beats
    ∧ (open_ (txn .rd 1) 1).blk.txn? 2 5 = some (txn .rd 1) ∧ (txn .rd 1).beats ≤ (txn .rd 1).got.length + 1
    ∧ (open_ (txn .wr 1) 1).blk.txn? 2 5 = some (txn .wr 1)
    ∧ (open_ (txn .wr 1) 2).blk.txn? 2 5 = some (txn .wr 1)
    ∧ (open_ (txn .at8 1) 1).blk.txn? 2 5 = some (txn .at8 1)
    ∧ (∃ j ∈ (open_ (txn .wr 1) 1).blk.host.jobs, (open_ (txn .wr 1) 1).blk.host.jobs.find? (fun x => x.id == 0) = some j ∧ j.left = 1)
    ∧ (∃ j ∈ (open_ (txn .wr 1) 2).blk.host.jobs, (open_ (txn .wr 1) 2).blk.host.jobs.find? (fun x => x.id == 0) = some j ∧ 2 ≤ j.left)
    ∧ (let s := open_ (txn .wr 1) 1; (txn .wr 1).start + s.blk.hostLimit ≤ max s.blk.time.now (10 ^ 12)
       ∧ max s.blk.time.now 10 < (txn .wr 1).start + s.blk.hostLimit) := by
  and_intros <;> decide +kernel

/-- The last write of a store's landing; two transfers that channel 2 offers. -/
def lands : DPkt := { id := 7, pkt := pk 2 0, src := 9, ctx := 7, cls := 3, opcode := 2, ctr := 3, bytes := 64 }
def landed : State := up fun b => { b with
  dest := { b.dest with nextId := 8, pkts := [lands] }
  host := { b.host with out := [txn .wr 1], nextJob := 1, jobs := [{ id := 0, kind := .land 7, addr := 0, len := 8, left := 1 }] } }
def offering : State := up fun b => { b with host := { b.host with
  out := [{ txn .wr 2 with taken := 0 }], rq := b.host.rq.set 2 ((({ txn .wr 2 with taken := 0 } : Txn).transfers).map fun x => (5, x)) } }

theorem test_hyp_hostResponses_landing :
    landed.carries ∧ landed.blk.txn? 2 5 = some (txn .wr 1) ∧ (txn .wr 1).kind = .wr
    ∧ (landed.blk.host.jobs.find? fun x => x.id == (txn .wr 1).job)
        = some { id := 0, kind := .land lands.id, addr := 0, len := 8, left := 1 }
    ∧ landed.blk.pkt? lands.id = some lands ∧ lands.status = 0 ∧ (∀ q ∈ landed.blk.dest.pkts, q.ofFlow 9 3 none = true → q = lands)
    ∧ isFsync lands.opcode = false ∧ lands.ctr ≠ 0 ∧ landed.blk.ctrBad.contains lands.ctr = false
    ∧ (landed.blk.dflow 9 3 none).silent = false ∧ landed.blk.dest.inbox = []
    ∧ offering.carries ∧ 2 < offering.blk.host.ready.length ∧ 1 < (offering.blk.host.rq.getD 2 []).length
    ∧ (offering.blk.host.rq.getD 2 []).length ≤ 32
    ∧ (∀ y ∈ offering.blk.host.rq.getD 2 [], ∃ t ∈ offering.blk.host.out, t.chan = 2 ∧ t.tag = y.1) := by
  and_intros <;> decide +kernel

/-- Stream 70 with an accepted entry. -/
def stream70 : State := up fun b => { b.setRf (fo 0x050) 6 6 1 with
  req := { b.req with streams := b.req.streams.set 70 { ready := true, entry := some (List.replicate 8 4) } } }

theorem test_hyp_streamsAndDoorbells : up.carries ∧ up.blk.rst.down = false ∧ bit (6 : Word) 1 = true ∧ bit (up.blk.peek (fo 0x050)) 1 = false
    ∧ (up.blk.stream 70).ready = false ∧ stream70.carries ∧ stream70.blk.rst.down = false ∧ (stream70.blk.stream 70).ready = true
    ∧ stream70.blk.doorbellOk 70 3 = true ∧ stream70.blk.doorbellOk 70 0x1234 = false
    ∧ (∀ i < 64, (up.blk.stream (64 * 0 + i)).asking = none) ∧ up.blk.rst.rinsing = false
    ∧ (let s := up fun b => { b with rst := { b.rst with rinse := some 7, rinsing := true } }
       s.carries ∧ s.blk.rst.down = false ∧ s.blk.rst.rinsing = true ∧ s.blk.rst.rinse = some 7
       ∧ ∀ i < 64, (s.blk.stream (64 * 0 + i)).asking = none) := by decide +kernel

/-- Region 3 locked; the same with a clear pending. -/
def lock3 : State := up fun b => ((b.setRf (fo 0x100) 3 3 1).setRf (regAt 0x43 0x040) 13 0 5).setRf (regAt 0x43 0x040) 63 63 1
def clear3 : State := up fun b => ((b.setRf (fo 0x100) 3 3 1).setRf (fo 0x100) 19 19 1).setRf (regAt 0x43 0x040) 13 0 0xC00

theorem test_hyp_programStore : lock3.carries ∧ lock3.blk.rst.down = false
    ∧ bit (lock3.blk.peek (fo 0x100)) (lock3.blk.rf (regAt 0x43 0x040) 13 0 / 1024) = false
    ∧ clear3.carries ∧ clear3.blk.rst.down = false ∧ bit (clear3.blk.peek (fo 0x100)) (clear3.blk.rf (regAt 0x43 0x040) 13 0 / 1024) = true
    ∧ bit (4 : Word) 2 = true ∧ bit (4 : Word) 3 = false ∧ lock3.blk.rf (fo 0x100) 3 3 = 1 ∧ lock3.blk.rf (fo 0x100) 4 4 = 0
    ∧ clear3.blk.rf (fo 0x100) 19 19 = 1 ∧ clear3.blk.regionBusy 3 = false := by decide +kernel

/-- A tick edge of a locked chip. -/
def edgy (b : Block) : Block := { b.setRf wTimeStatus 63 63 1 with time := { b.time with aligned := true, atEdge := true } }

/-- The route entry 5 of the set that is not current selected, four chips along x; an armed set; a flush under way. -/
def routes : State := up fun b => (b.poke (rt 0x058) (0x8000000000008005#64)).setRf wSeal 63 59 3
def armed : State := up fun b => edgy { b with fwd := { b.fwd with other := 1 } }
def flushing : State := up fun b => b.setRf (rt 0x088) 35 35 1

theorem test_hyp_routingRegisters : routes.carries
    ∧ (routes.blk.fwd.other = 0 ∧ fld (routes.blk.peek (rt 0x058)) 15 15 ≠ routes.blk.fwd.current ∧ fld (0x41 : Word) 7 6 ≠ 3
      ∧ fld (0x41 : Word) 2 0 ≤ 5 ∧ routes.blk.axisLen (fld (0x41 : Word) 2 0 / 2) ≠ 1)
    ∧ fld (0xC0 : Word) 7 6 = 3 ∧ routes.blk.time.tick + 2 ≤ fld (0x42 : Word) 47 0 ∧ fld (1 : Word) 47 0 < routes.blk.time.tick + 2
    ∧ armed.carries ∧ armed.blk.fwd.other ≠ 0 ∧ bit (1 : Word) 63 = false
    ∧ (∀ x, x < 3 → geLo (word (2 ^ 63)) x < routes.blk.axisLen x ∧ geHi (word (2 ^ 63)) x < routes.blk.axisLen x)
    ∧ bit (word (2 ^ 63 + 31)) 63 = true ∧ routes.blk.axisLen 0 ≤ geLo (word (2 ^ 63 + 31)) 0 ∧ fld (0x201 : Word) 7 0 < fld (0x201 : Word) 15 8
    ∧ fld (0x101 : Word) 15 8 ≤ fld (0x101 : Word) 7 0 ∧ routes.blk.rf (rt 0x088) 35 35 = 0
    ∧ flushing.carries ∧ flushing.blk.rf (rt 0x088) 35 35 = 1 := by decide +kernel

/-- A set that drained at two edges; a committed packet starved for 5,000 edges. -/
def drained : State := up fun b => { b with fwd := { b.fwd with other := 2, zeroEdges := 2 } }
def starving : State := up fun b => { b with fwd := { b.fwd with
  pkts := [{ id := 1, hdr := (pk 1 0).hdr, input := 6, sub := 0, branches := [{ out := 2, subch := 1, epoch := 0, st := .committed }] }],
  starved := Tbl.set 0 [] (16 * 2 + 3) 5000 } }

theorem test_hyp_routeEvents : armed.blk.onEdge = true ∧ up.carries ∧ up.blk.fwd.other ≠ 1 ∧ armed.carries ∧ armed.blk.fwd.other = 1 ∧ armed.blk.rf (rt 0x048) 47 0 ≤ armed.blk.time.tick
    ∧ drained.carries ∧ drained.blk.fwd.other = 2 ∧ 2 ≤ drained.blk.fwd.zeroEdges
    ∧ starving.carries ∧ starving.blk.committed 2 3 ≠ none
    ∧ max 1 (starving.blk.rf (rt 0x0C0) 47 32) ≤ Tbl.get 0 starving.blk.fwd.starved (16 * 2 + 3) := by decide +kernel

/-- Entry 0 open to every kind of request, counter group 0 valid, counter 3 at 10. -/
def window (f : Block → Block := id) : State := up fun b => f { b with
  segmap := [(0, word (2 ^ 63 + 2 ^ 60 + 2 ^ 59 + 2 ^ 58 + 2 ^ 57 + 5))], groups := [(0, word (2 ^ 63 + 2 ^ 60 + 2 ^ 59))], ctrs := [(3, 10)] }

/-- The same request to every chip. -/
def mcp (op : Nat) (p : Packet) : Packet := { p with hdr := p.hdr ||| BitVec.ofNat 128 (put (op - hOp p.hdr) 6 122 + put (2 ^ 14) 15 105) }

def loadP : Packet := pk 1 (put 4 37 25 + put 3 8 17 + 77)
def storeP : Packet := pk 2 (put 4 37 25 + put 1 8 17 + 3) [1, 2]
def partP : Packet := pk 3 (put 4 37 25 + put 2 4 21 + put 5 4 17 + 3) [1]

/-- A chip that has seen a packet of chip 9 in TC1 under epoch 1, and still has epoch 0. -/
def overtaken : State := up fun b => { b with fwd := { b.fwd with current := 1, newSeen := [(9, 1)] } }

/-- What STORE and its kin need of a packet `p` of opcode `op`. -/
abbrev storeHyps (p : Packet) (op : Nat) : Prop := window.blk.takes p ∧ hOp p.hdr = op ∧ p.bad = false
  ∧ ((window.blk.found p (hTag p.hdr) {}).memCheck p (hBytes p.hdr) (hTag p.hdr) none).status = 0 ∧ storeBytes p ≠ []
  ∧ ((window.blk.found p (hTag p.hdr) { seg := .bad }).memCheck p (hBytes p.hdr) (hTag p.hdr) none).status ≠ 0
  ∧ window.blk.flowEmpty (hSrc p.hdr) (opClass (hOp p.hdr)) (mcKey p.hdr)
  ∧ (window.blk.dflow (hSrc p.hdr) (opClass (hOp p.hdr)) (mcKey p.hdr)).silent = false

theorem test_hyp_memoryArrivals : window.carries ∧ window.blk.takes loadP ∧ hOp loadP.hdr = 1
    ∧ ((window.blk.found loadP 0 {}).memCheck loadP (hBytes loadP.hdr) 0 none).status = 0
    ∧ ((window.blk.found loadP 0 { seg := .bad }).memCheck loadP (hBytes loadP.hdr) 0 none).status ≠ 0
    ∧ overtaken.carries ∧ ¬overtaken.blk.epochOk loadP := by decide +kernel

theorem test_hyp_memoryArrivals_stores :
    storeHyps storeP 2 ∧ storeHyps partP 3 ∧ storeHyps (mcp 0xA storeP) 0xA ∧ storeHyps (mcp 0xB partP) 0xB := by
  and_intros <;> decide +kernel

/-- Profile 0 a SUM of binary32 that any context may use; a program's pass window over the first 4 KiB. -/
def summing : State := window fun b => b.poke (mg 0 0x800) (word (2 ^ 63 + 2 ^ 59 + 2 ^ 44))
def copying : State := window fun b => b.poke (mg 0 0x800) (word (2 ^ 63 + 2 ^ 44))
def passing : State := window fun b => { b.poke (mg 0 0x800) (word (2 ^ 63 + 2 ^ 59 + 2 ^ 44)) with
  fold := { b.fold with progs := b.fold.progs.set 3 { win := some (0, 4096) } } }
def reduceP : Packet := pk 4 (put 1 35 27 + 3) [1, 2, 3, 4]

/-- The same with chip 9's packet 0 holding the range, waiting for room in pass staging, or with the staging full. -/
def dp0 : DPkt := { id := 0, pkt := reduceP, src := 9, ctx := 7, cls := 4, opcode := 4 }
def locking : State := { summing with blk := { summing.blk with dest := { summing.blk.dest with
  nextId := 1, pkts := [{ dp0 with started := true, span := 2 ^ 30 }] } } }
def backed : State := { passing with blk := { passing.blk with dest := { passing.blk.dest with
  nextId := 1, pkts := [{ dp0 with pkt := { reduceP with hdr := reduceP.hdr - 2 ^ 90 }, src := 8, window := some 3 }] } } }

/-- What REDUCE needs in the state `s` to pass its checks, with `win` the window that its span falls in and `wait` whether its
range is held. -/
abbrev reduceHyps (s : State) (p : Packet) (op : Nat) (win : Option Nat) (wait : Bool) : Prop :=
  s.carries ∧ s.blk.takes p ∧ p.bad = false ∧ hOp p.hdr = op ∧ s.blk.mangle.engines.length = 12
  ∧ (let prof := profileOf (s.blk.peek (mg 0 0x800)).toNat (s.blk.peek (mg 0 0x880)).toNat
     let span := reduceSpan prof (slotsBytes p.data)
     let c := (s.blk.found p (hTag p.hdr) {}).memCheck p span (hTag p.hdr) (some prof)
     c.status = 0 ∧ s.blk.mustWait c.haddr span = wait ∧ prof.op ≠ 0
       ∧ s.blk.windowFor (hOff p.hdr) span (fld (s.blk.seg (hOff p.hdr / 2 ^ 21)) 56 45) = win)

theorem test_hyp_reduceArrivals : fld reduceP.hdr 20 17 = 0 ∧ reduceHyps summing reduceP 4 none false
    ∧ reduceHyps summing (mcp 0xC reduceP) 0xC none false ∧ reduceHyps locking (mcp 0xC reduceP) 0xC none true
    ∧ reduceHyps passing reduceP 4 (some 3) false ∧ passing.blk.stagePlace (slotsBytes reduceP.data).length = some false
    ∧ passing.blk.dest.pkts = [] ∧ (∃ d ∈ backed.blk.dest.pkts, d.window ≠ none) := by and_intros <;> decide +kernel

/-- With a profile that copies; with no window open. -/
theorem test_hyp_reduceArrivals_rest : (let prof := profileOf (copying.blk.peek (mg 0 0x800)).toNat (copying.blk.peek (mg 0 0x880)).toNat
      let span := reduceSpan prof (slotsBytes reduceP.data)
      let c := (copying.blk.found reduceP (hTag reduceP.hdr) {}).memCheck reduceP span (hTag reduceP.hdr) (some prof)
      prof.op = 0 ∧ c.status = 0 ∧ copying.carries ∧ copying.blk.takes reduceP ∧ copying.blk.mustWait c.haddr span = false)
    ∧ reduceHyps backed reduceP 4 (some 3) false ∧ up.carries ∧ up.blk.takes reduceP
    ∧ (up.blk.memCheck reduceP 64 (hTag reduceP.hdr) none).status ≠ 0 ∧ up.blk.flowEmpty 9 4 none
    ∧ (up.blk.dflow 9 4 none).silent = false := by and_intros <;> decide +kernel

def signalP : Packet := pk 5 (put 3 16 46) [32]
def readP : Packet := pk 6 (put 3 16 46 + 55)
def badCounter : State := window fun b => { b with ctrBad := [3] }

theorem test_hyp_counterArrivals : window.carries ∧ window.blk.takes signalP ∧ hOp signalP.hdr = 5
    ∧ ((window.blk.found signalP 3 {}).ctrReqCheck signalP 59).status = 0 ∧ signalP.bad = false
    ∧ (window.blk.found signalP 3 {}).ctrBad.contains (hCtr signalP.hdr) = false
    ∧ (window.blk.found signalP 3 { ctr := .bad }).ctrBad.contains (hCtr signalP.hdr) = true
    ∧ ((window.blk.found signalP 3 { grp := .bad }).ctrReqCheck signalP 59).status ≠ 0
    ∧ window.blk.flowEmpty (hSrc signalP.hdr) 5 none ∧ (window.blk.dflow (hSrc signalP.hdr) 5 none).silent = false
    ∧ window.blk.takes readP ∧ hOp readP.hdr = 6 ∧ ((window.blk.found readP 3 {}).ctrReqCheck readP 60).status = 0
    ∧ ((window.blk.found readP 3 { grp := .bad }).ctrReqCheck readP 60).status ≠ 0 ∧ badCounter.carries ∧ badCounter.blk.takes readP
    ∧ ((badCounter.blk.found readP 3 {}).ctrReqCheck readP 60).status = 0
    ∧ (badCounter.blk.found readP 3 {}).ctrBad.contains (hCtr readP.hdr) = true
    ∧ (∀ op ∈ [7, 8, 9], window.blk.takes (pk op 55) ∧ hOp (pk op 55).hdr = op ∧ window.blk.flowEmpty 9 (op - 4) none) := by
  and_intros <;> decide +kernel

/-- An atomic of opcode `op` on 16-byte aligned bytes. -/
def atomicP (op : Nat) : Packet := pk op (put 8 38 24 + 5) [7, 8]

theorem test_hyp_atomicArrivals : window.carries
    ∧ ∀ op ∈ [0x10, 0x11, 0x12, 0x13, 0x14, 0x15, 0x16, 0x17, 0x18, 0x19, 0x1A],
      window.blk.takes (atomicP op) ∧ (atomicP op).bad = false ∧ hOp (atomicP op).hdr = op ∧ hOff (atomicP op).hdr % 16 = 0
      ∧ ((window.blk.found (atomicP op) 0 { seg := .bad }).memCheck (atomicP op) (hBytes (atomicP op).hdr) 0 none).status ≠ 0
      ∧ (let c := (window.blk.found (atomicP op) 0 {}).memCheck (atomicP op) (hBytes (atomicP op).hdr) 0 none
         c.status = 0 ∧ window.blk.mustWait c.haddr (hBytes (atomicP op).hdr) = false
           ∧ locking.blk.mustWait c.haddr (hBytes (atomicP op).hdr) = true) := by
  decide +kernel

/-- A CAS16 at an odd multiple of 8. -/
theorem test_hyp_atomicArrivals_odd : let p := pk 0x1A (put 9 38 24 + 5) [7, 8]
    window.blk.takes p ∧ hOp p.hdr = 0x1A ∧ hOff p.hdr % 16 ≠ 0
    ∧ ((window.blk.found p 0 {}).memCheck p (hBytes p.hdr) 0 none).status = 0 := by decide +kernel

/-- A register request for window word `w`, marked by the sender's management core or not. -/
def regP (op w : Nat) (mgmt : Bool) (data : List Slot := []) : Packet := pk op (put w 16 46 + put (b2n mgmt) 1 45 + 5) data

theorem test_hyp_registerRequests : up.carries ∧ (∀ w ∈ [sg 0x088, wSeal, fo 0x040, lk 2 0x058], up.blk.takes (regP 0x0D w true)
      ∧ hOp (regP 0x0D w true).hdr = 0x0D ∧ fld (regP 0x0D w true).hdr 61 46 = w ∧ bit (regP 0x0D w true).hdr 45 = true)
    ∧ hDst (regP 0x0D wSeal true).hdr = up.blk.chipId ∧ hSrc (regP 0x0D wSeal true).hdr ≠ up.blk.chipId
    ∧ bit (regP 0x0D wSeal false).hdr 45 = false ∧ up.blk.takes (regP 0x0D wSeal false)
    ∧ (∀ w ∈ [sg 0x088, fo 0x040], up.blk.takes (regP 0x0E w true [77]) ∧ hOp (regP 0x0E w true [77]).hdr = 0x0E
      ∧ (regP 0x0E w true [77]).bad = false ∧ (regDef w).isSome = true)
    ∧ (let p := { regP 0x0E (sg 0x088) true [77] with bad := true }; up.blk.takes p ∧ hOp p.hdr = 0x0E ∧ p.bad = true)
    ∧ (∀ w ∈ [sg 0x088, wSeal, fo 0x040, lk 2 0x058], w ≠ cn 0x090 ∧ w ≠ rt 0x050)
    ∧ (∀ op ∈ [0x0F, 0x1B, 0x1C, 0x1D, 0x1E, 0x1F, 0x26, 0x2F, 0x30, 0x33, 0x3A, 0x3E], up.blk.takes (pk op 5) ∧ hOp (pk op 5).hdr = op) := by
  decide +kernel

/-- A GET of 8 bytes with TAG 2 out and a posted packet in flow (3, TC4); the flow broken; a group flow; a store to chip 3. -/
def getCmd : Cmd := { id := 5, stream := 1, ctx := 5, qindex := 3, desc := [word (3 * 2 ^ 56), 0, 0, 0, 0, 0, 0, 0], timer := some 0, tags := 1 }
def tag2 : TagEnt :=
  { tag := 2, cmd := 5, opcode := 1, peer := 3, skip := 0, want := 8, land := [(0x5000, 8, false)], lctr := 0, epoch := 0, tick := 0 }
def posted4 : Posted := { cmd := 5, k := 0, peer := 3, cls := 4, pos := 1, n := 64, epoch := 0, tick := 0 }
def flow4 : Flow := { peer := 3, cls := 4, issued := 1 }
def broken4 : Broken := { cause := 1, by_ := 0, fsyncs := [(2, 2, 0)], sent := 1, sentAt := 0, cmds := [5] }
def group6 : GroupFlow := { key := 6, cls := 4, cmd := some 5, gen := 1, issued := 1, members := 3 }
def reqState (fl : Flow) (gs : List GroupFlow) (ps : List Posted) : State := window fun b => { b with
  req := { b.req with cmds := [getCmd], nextCmd := 9, tags := [tag2], posted := ps, flows := [fl], groups := gs } }
def waiting : State := reqState flow4 [group6] [posted4]
def breaking : State := reqState { flow4 with issued := 2, broken := some broken4 } [] [posted4]
def ended6 : State := { waiting with blk := { waiting.blk with req := { waiting.blk.req with cmds := [{ getCmd with ended := true }] } } }
def storing : State := reqState flow4 [] [{ posted4 with cls := 3 }]

theorem test_hyp_requesterPackets : waiting.carries ∧ waiting.blk.rst.down = false ∧ waiting.blk.epochOk (rp 0x20 2 [77])
    ∧ waiting.blk.req.tags.find? (fun e => e.tag == hTag (rp 0x20 2 [77]).hdr) = some tag2
    ∧ waiting.blk.cmd? tag2.cmd = some getCmd ∧ hOp (rp 0x20 2 [77]).hdr = 0x20 ∧ fld (rp 0x20 2 [77]).hdr 69 66 = 0
    ∧ (rp 0x20 2 [77]).bad = false ∧ tag2.want ≠ 0 ∧ hOp (rp 0x21 (put 2 4 66 + 2)).hdr = 0x21 ∧ fld (rp 0x21 (put 2 4 66 + 2)).hdr 69 66 ≠ 0
    ∧ waiting.blk.req.tags.find? (fun e => e.tag == hTag (rp 0x21 (put 2 4 66 + 2)).hdr) = some tag2
    ∧ waiting.blk.req.tags.find? (fun e => e.tag == hTag (rp 0x20 9).hdr) = none := by and_intros <;> decide +kernel

theorem test_hyp_requesterPackets_receipts :
    (let h := (rp 0x22 (put 1 2 88 + put 1 24 64)).hdr
     let f := waiting.blk.flow 3 4
     hOp h = 0x22 ∧ hSrc h = 3 ∧ hRclass h = 4 ∧ f.fresh = false ∧ subMod 24 (hCount h) f.covered ≤ subMod 24 f.issued f.covered)
    ∧ (let h := (rp 0x22 (put 1 2 88 + put 2 24 64)).hdr
       let f := waiting.blk.flow 3 4
       hSrc h = 3 ∧ hRclass h = 4 ∧ subMod 24 f.issued f.covered < subMod 24 (hCount h) f.covered)
    ∧ (let h := (rp 0x23 (put 1 2 88 + put 2 24 64 + put 1 2 53 + put 6 12 41)).hdr
       hOp h = 0x23 ∧ (let g := waiting.blk.gflow (fld h 52 41 + 4096 * fld h 55 55) (hRclass h)
         g.cmd = some 5 ∧ g.gen = fld h 54 53 ∧ waiting.blk.openCmd 5 = some getCmd)
       ∧ ended6.carries ∧ (ended6.blk.gflow 6 4).cmd = some 5 ∧ ended6.blk.openCmd 5 = none)
    ∧ (let h := (rp 0x24 (put 1 2 88 + put 2 24 64 + 2)).hdr
       breaking.carries ∧ breaking.blk.rst.down = false ∧ hOp h = 0x24 ∧ (breaking.blk.flow (hSrc h) (hRclass h)).broken = some broken4
       ∧ broken4.fsyncs.find? (fun x => x.1 == hTag h) = some (hTag h, 2, 0)
       ∧ broken4.fsyncs.find? (fun x => x.1 == hTag (rp 0x24 9).hdr) = none) := by and_intros <;> decide +kernel

theorem test_hyp_requesterPackets_notes :
    (let h := (rp 0x25 (put 2 6 71 + put 3 15 56)).hdr
     storing.carries ∧ storing.blk.rst.down = false ∧ hOp h = 0x25 ∧ fld h 76 71 ∈ [0x02, 0x03, 0x04, 0x05]
     ∧ ∃ q ∈ storing.blk.req.posted, q.peer = fld h 70 56 ∧ q.cls = opClass (fld h 76 71))
    ∧ (let h := (rp 0x25 (put 1 6 71 + put 3 15 56 + 2)).hdr
       hOp h = 0x25 ∧ nonPosted (fld h 76 71) = true ∧ waiting.blk.req.tags.find? (fun e => e.tag == hTag h) = some tag2
       ∧ waiting.blk.openCmd tag2.cmd = some getCmd)
    ∧ (let h := (rp 0x25 (put 0xC 6 71 + put (4096 + 6) 15 56)).hdr
       let g := waiting.blk.gflow (groupKey (fld h 70 56)) (opClass (fld h 76 71))
       hOp h = 0x25 ∧ isMC (fld h 76 71) = true ∧ g.cmd = some 5 ∧ waiting.blk.openCmd 5 = some getCmd
       ∧ g.gen = fld h 70 56 / 4096 % 4) := by and_intros <;> decide +kernel

/-- The TAG's bytes go into the local window, and no held range meets them. -/
theorem test_hyp_requesterPackets_land : tag2.land = [(0x5000, 8, false)] ∧ waiting.blk.mustWait 0x5000 8 = false ∧ 0x5000 % 4096 + 8 ≤ 4096 := by
  decide +kernel

/-- Four chips along each axis, every feature agreed, every region of the program store locked. -/
def agreed (b : Block) : Block :=
  ((((b.setRf wSealLeft 63 63 1).setRf wSeal 63 49 0x0C63).poke wFeatAgreed 0xFF).poke wFeatOffered 0xFF).poke (fo 0x100) 0xFFFF

/-- Stream 1 enabled, with a queue of version `qv` that holds the descriptors `ds`. -/
def queued (qv : Nat) (ds : List (List Word)) (f : Block → Block := id) : State := up fun b => agreed (f { b.poke (fo 0x048) 2 with
  req := { b.req with streams := b.req.streams.set 1 { entry := some [word (0x10000 + 4), word (0x20000 + 5), 0, word (qv * 2 ^ 28 + 5 * 2 ^ 32), 0, 0, 0, 0], ready := true, head := ds.length, asked := ds.length, fetched := ds.mapIdx fun i d => { q := i, desc := some d } } } })

/-- A fabric address. -/
def fa (cls chip off : Nat) : Word := word (cls * 2 ^ 60 + chip * 2 ^ 45 + off)

/-- Words 1 to 5 of a v1 and of a v2 descriptor. -/
def d1 (op flags : Nat) (dst src w4 w5 : Word) : List Word := [word (op * 2 ^ 56 + 2 ^ 52 + flags), 0, dst, src, w4, w5, 0, 0]
def d2 (op flags : Nat) (dst src w4 w5 : Word) (rest : List Word := List.replicate 8 0) : List Word :=
  [word (op * 2 ^ 56 + 2 * 2 ^ 52 + flags), 0, dst, src, w4, w5, 0, 0] ++ rest

/-- A descriptor for each row; with NO_RESULT in the atomics. -/
def descs1 : List (List Word) := [d1 0 0 0 0 0 0, d1 1 0 (fa 0 3 0) 0 8 0, d1 2 0 (fa 0 3 0) 0 8 5, d1 3 0 0 (fa 0 3 0) 8 0,
  d1 4 (2 ^ 49) (fa 0 3 0x40) 0 (word (0x10 * 2 ^ 40)) 9]
def descs2 : List (List Word) := [d2 0x10 0 (fa 0 3 0) 0 64 0,
  d2 0x11 (2 ^ 49) (fa 0 3 0x40) 0 0 1 [0, 0, 3, 4, 0, 0, 0, 0], d2 0x12 0 (fa 1 3 0x40) 0 0 7, d2 0x13 0 0 0 0 0,
  d2 0x14 0 (fa 0 3 0) 0 64 0 [0, fa 0 0 4096, 0, 0, 0, 0, 0, 0], d2 0x15 0 0 0 0 0 [0, 1000, 0, 0, 0, 0, 0, 0]]

/-- What admission needs: the descriptor `d` at the head of stream 1's queue, admitted or (`bad`) refused. -/
abbrev admits (qv : Nat) (d : List Word) (op : Nat) (bad : Bool) : Prop := (queued qv [d]).carries
  ∧ (queued qv [d]).blk.admissible 1 = some { q := 0, desc := some d } ∧ dOp d = op
  ∧ (((queued qv [d]).blk.admission 1 d).1 == 0) = !bad

theorem test_hyp_descriptorsAdmitted : (∀ x ∈ descs1.zip [0x00, 0x01, 0x02, 0x03, 0x04], admits 1 x.1 x.2 false)
    ∧ (∀ x ∈ descs2.zip [0x10, 0x11, 0x12, 0x13, 0x14, 0x15], admits 2 x.1 x.2 false)
    ∧ admits 1 (d1 2 0 (fa 0 3 0) 0 0 5) 0x02 true := by decide +kernel

/-- What the first packet of a descriptor needs to leave. -/
abbrev leaves (qv : Nat) (d : List Word) (op : Nat) : Prop := admits qv d op false ∧ (queued qv [d]).blk.req.cmds = []
  ∧ ((plansOf d).head?.map fun p => !p.touches && p.data.isSome && p.dst != (queued qv [d]).blk.chipId) = some true

theorem test_hyp_descriptorsIssue : leaves 1 (d1 2 0 (fa 0 3 0) 0 8 5) 2 ∧ leaves 1 (d1 4 (2 ^ 49) (fa 0 3 0x40) 0 (word (0x10 * 2 ^ 40)) 9) 4
    ∧ leaves 2 (d2 0x11 (2 ^ 49) (fa 0 3 0x40) 0 0 1 [0, 0, 3, 4, 0, 0, 0, 0]) 0x11 ∧ leaves 2 (d2 0x12 0 (fa 1 3 0x40) 0 0 7) 0x12 := by
  decide +kernel

/-- For a store to one chip nothing in `blocked` depends on the command. -/
theorem test_hyp_descriptorsIssue_blocked : ∀ c : Cmd, ∀ p ∈ plansOf (d1 2 0 (fa 0 3 0) 0 8 5),
    (queued 1 [d1 2 0 (fa 0 3 0) 0 8 5]).blk.blocked c p = false := by
  have h : ∀ p ∈ plansOf (d1 2 0 (fa 0 3 0) 0 8 5), (queued 1 [d1 2 0 (fa 0 3 0) 0 8 5]).blk.blocked getCmd p = false
      ∧ isMC p.opcode = false ∧ (queued 1 [d1 2 0 (fa 0 3 0) 0 8 5]).blk.egressFull (opClass p.opcode) = false := by decide +kernel
  intro c p hp
  have := h p hp
  simp [Block.blocked, this.2.1] at this ⊢
  exact ⟨⟨this.1.1.1, fun _ => this.2⟩, this.1.2⟩

/-- Stream 1 with one command: a covered PUT, one timed out, a DESC_TICK whose edge has come or not. -/
def putCmd : Cmd := { id := 5, stream := 1, ctx := 5, qindex := 3, desc := d1 2 0 (fa 0 3 0) 0 8 5, timer := some 0 }
def tickCmd (t : Nat) : Cmd := { putCmd with desc := d2 0x15 0 0 0 0 0, tickHold := some t }
def running (c : Cmd) (f : Block → Block := id) : State := queued 1 [] fun b => f { b with
  req := { b.req with cmds := [c], nextCmd := 9, held := [{ tag := 4, until_ := 0 }] } }
def late : State := running putCmd fun b => { b with time := { b.time with edge := 10 ^ 12 }, req := { b.req with tags := [tag2] } }
def resent : Flow := { flow4 with issued := 7, broken := some { broken4 with fsyncs := [] } }
def resend : State := queued 1 [] fun b => { b with time := { b.time with now := 10 ^ 12 }, req := { b.req with flows := [resent] } }

/-- A PUT that writes no record of success; a class that has not switched to the new epoch yet. -/
def quietCmd : Cmd := { putCmd with desc := d1 2 (2 ^ 50) (fa 0 3 0) 0 8 5 }
def keptBack : State := { resend with blk := { resend.blk with fwd := { resend.blk.fwd with switched := 0xEF } } }

theorem test_hyp_commandsEnd : (running putCmd).carries ∧ (running putCmd).blk.cmd? 5 = some putCmd ∧ putCmd.ofFold = false
    ∧ (running putCmd).blk.covered putCmd = true ∧ ((running putCmd).blk.stream 1).entry ≠ none
    ∧ (dQuiet putCmd.desc && putCmd.status == 0 && !putCmd.desc.isEmpty) = false
    ∧ (running quietCmd).carries ∧ (running quietCmd).blk.cmd? 5 = some quietCmd ∧ (running quietCmd).blk.covered quietCmd = true
    ∧ ((running quietCmd).blk.stream 1).entry ≠ none
    ∧ (dQuiet quietCmd.desc && quietCmd.status == 0 && !quietCmd.desc.isEmpty) = true
    ∧ late.carries ∧ late.blk.cmd? 5 = some putCmd ∧ late.blk.timedOut putCmd = true ∧ (∃ e ∈ late.blk.req.tags, e.cmd = 5)
    ∧ (running (tickCmd 0)).blk.turn 1 = some (tickCmd 0) ∧ (tickCmd 0).timer ≠ none ∧ 0 ≤ (running (tickCmd 0)).blk.time.tick
    ∧ (running (tickCmd 9)).carries ∧ (running (tickCmd 9)).blk.turn 1 = some (tickCmd 9) ∧ (running (tickCmd 9)).blk.time.tick < 9
    ∧ resend.carries ∧ (resend.blk.flow 3 4).broken = some { broken4 with fsyncs := [] } ∧ broken4.sent ≠ 0 ∧ resend.blk.issueHeld = false
    ∧ broken4.sentAt + 16000000 * resend.blk.rf (fo 0x068) 15 0 ≤ resend.blk.time.now ∧ bitN resend.blk.fwd.switched 4 = true
    ∧ (let s := keptBack
       s.carries ∧ (s.blk.flow 3 4).broken = some { broken4 with fsyncs := [] } ∧ s.blk.issueHeld = false
       ∧ broken4.sentAt + 16000000 * s.blk.rf (fo 0x068) 15 0 ≤ s.blk.time.now ∧ bitN s.blk.fwd.switched 4 = false) := by
  and_intros <;> decide +kernel

/-- Four chips along each axis, port 0 up with credits, and one packet from port 2 for chip `dst` in the forwarding core. -/
def fp (dst : Nat) : FPkt := { id := 7, hdr := (pk 1 0).hdr ||| BitVec.ofNat 128 (put dst 15 105), input := 2, sub := 0, session := 0, data := [], tick := 0 }
def fwding (pkts : List FPkt) (inject : List Packet) : State := up fun b => agreed { b with
  ports := b.ports.set 0 { st := 5, txLimit := List.replicate 32 9 }, fwd := { b.fwd with pkts, inject, nextId := 9 } }
def toOne : Packet := { pk 1 0 with hdr := (fp 1).hdr }
def queuedOut : State := fwding [{ fp 1 with routed := true, branches := [{ out := 0, subch := 0, epoch := 0, members := 0 }] }] []

/-- A response for `dst`; a packet that has crossed the wrap link of the x axis and would cross it again. -/
def fresp (dst : Nat) : FPkt := { fp dst with hdr := (pk 0x20 0).hdr ||| BitVec.ofNat 128 (put dst 15 105) }
def fwrap : FPkt := { fp 3 with input := 0, sub := 1 }

/-- A packet that the core would take next from its port. -/
abbrev stands (p : FPkt) : Prop := let s := fwding [p] []
  let lane := 2 * opClass (hOp p.hdr) + p.sub
  s.carries ∧ p.input < 6 ∧ p.sub = lane % 2
  ∧ (s.blk.fwd.pkts.find? fun q => q.input == p.input && !q.routed && opClass (hOp q.hdr) == lane / 2) = some p
  ∧ s.blk.fpkt? 7 = some p ∧ treeOp (hOp p.hdr) = false ∧ b2n (bit p.hdr 120) = s.blk.fwd.current

theorem test_hyp_packetsForwarded : stands (fp 0) ∧ stands (fp 1) ∧ stands (fp 31) ∧ stands (fresp 1) ∧ stands (fresp 31) ∧ stands fwrap
    ∧ (fp 1).sub ≠ 3 % 2
    ∧ (let b := (fwding [fp 1] []).blk; b.routeOf 0 1 = 0 ∧ b.portUp 0 = true ∧ b.hop 2 0 0 = some 0)
    ∧ (let b := (fwding [fwrap] []).blk; b.routeOf 0 3 = 1 ∧ b.hop 0 1 1 = none)
    ∧ (let b := (up agreed).blk; b.routeOf 0 1 = 0 ∧ b.portUp 0 = false ∧ b.hop 2 0 0 = some 0 ∧ tracked (opClass 0x20) = false)
    ∧ (let b := (fwding [fp 0] []).blk; b.routeOf 0 0 = 6 ∧ (fp 0).whole = true ∧ (fp 0).killed = false)
    ∧ (let b := (fwding [fp 31] []).blk; b.routeOf 0 31 = 7 ∧ tracked 1 = true)
    ∧ (let b := (fwding [] [toOne]).blk; (b.fwd.inject.find? fun p => opClass (hOp p.hdr) == 2 / 2) = some toOne ∧ b.fpkt? 9 = none
      ∧ treeOp (hOp toOne.hdr) = false ∧ b2n (bit toOne.hdr 120) = b.fwd.current ∧ b.routeOf 0 (hDst toOne.hdr) = 0 ∧ b.hop 6 0 0 = some 0) := by
  and_intros <;> decide +kernel

theorem test_hyp_packetsForwarded_commit : (let q := queuedOut.blk.port 0; q.st = 5 ∧ bit (queuedOut.blk.peek (lk 0 0x010)) 1 = false
      ∧ queuedOut.blk.committed 0 2 = none ∧ q.credit 4 = true ∧ q.credit 5 = true
      ∧ (queuedOut.blk.nextOf 0 1).map (fun x => (x.1.id, x.2.subch)) = some (7, 0))
    ∧ queuedOut.carries ∧ (queuedOut.blk.port 1).st ≠ 5 := by and_intros <;> decide +kernel

/-- A packet in the Hamper of port 2 at an armed tick edge, routed anew to an axis port that is up or down, to its own port, or nowhere. -/
def inHamper (dst : Nat) (st : Nat) : State := up fun b => edgy (agreed { b with
  ports := b.ports.set 0 { st, txLimit := List.replicate 32 9 }
  fwd := { b.fwd with other := 1, nextId := 9, nextOrder := 5,
                      pkts := [{ fp dst with routed := true, branches := [{ out := 2, subch := 0, epoch := 0, st := .hamper, order := 3 }] }] } })

theorem test_hyp_routeEvents_reroute :
    (∀ x ∈ [(1, 5), (1, 0), (32, 0), (31, 0)], let s := inHamper x.1 x.2
      s.carries ∧ s.blk.fwd.other = 1 ∧ s.blk.rf (rt 0x048) 47 0 ≤ s.blk.time.tick ∧ s.blk.onEdge = true
      ∧ (s.blk.fwd.pkts.map (·.id)).Nodup ∧ (∀ q ∈ s.blk.fwd.pkts, ∀ y ∈ q.branches, y.st = .waiting → s.blk.portUp y.out = true)
      ∧ isMC (hOp (fp x.1).hdr) = false)
    ∧ (let b := (inHamper 1 5).blk; b.routeOf (1 - b.fwd.current) 1 = 0 ∧ b.portUp 0 = true ∧ b.hop 2 0 0 ≠ none)
    ∧ (inHamper 1 0).blk.portUp 0 = false
    ∧ (let b := (inHamper 32 0).blk; b.routeOf (1 - b.fwd.current) 32 = 2 ∧ b.portUp 2 = false ∧ b.hop 2 0 2 ≠ none)
    ∧ (let b := (inHamper 31 0).blk; b.routeOf (1 - b.fwd.current) 31 = 7 ∧ tracked 1 = true) := by and_intros <;> decide +kernel

/-- A request for chip 1 whose port is down: its Hamper has room, is full, or passes the level that starts a flush. -/
def store1 (n : Nat) : FPkt := { fp 1 with hdr := (pk 2 0).hdr ||| BitVec.ofNat 128 (put 1 15 105 + put (n - 1) 8 17), data := List.replicate n 0 }
def stored (id : Nat) (big : Nat) : FPkt :=
  { store1 big with id, input := 3, routed := true, branches := [{ out := 0, subch := 0, epoch := 0, st := .hamper, order := id }] }
def entering (limit : Nat) (olds : List FPkt) : State := up fun b => agreed { b.poke (rt 0x080) (word limit) with
  fwd := { b.fwd with pkts := olds ++ [store1 2], nextId := 900, nextOrder := 900 } }

abbrev entersAt (s : State) : Prop := let lane := 2 * opClass 2
  s.carries ∧ (s.blk.fwd.pkts.find? fun q => q.input == 2 && !q.routed && opClass (hOp q.hdr) == lane / 2) = some (store1 2)
  ∧ (store1 2).sub = lane % 2 ∧ s.blk.fpkt? 7 = some (store1 2) ∧ b2n (bit (store1 2).hdr 120) = s.blk.fwd.current
  ∧ treeOp (hOp (store1 2).hdr) = false ∧ tracked (opClass (hOp (store1 2).hdr)) = true ∧ s.blk.routeOf 0 (hDst (store1 2).hdr) = 0
  ∧ s.blk.portUp 0 = false ∧ s.blk.hop 2 0 0 ≠ none ∧ (s.blk.fwd.pkts.map (·.id)).Nodup

theorem test_hyp_packetsForwarded_hamper :
    (let s := entering 0xFF80 []
     entersAt s ∧ s.blk.hamperBytes false + (store1 2).bytes ≤ 2 ^ 20 ∧ s.blk.waitsBehind (store1 2) 0 = false
     ∧ ¬(s.blk.rf (rt 0x080) 15 8 * s.blk.hamperStore ≤ (s.blk.hamperBytes false + s.blk.hamperBytes true + (store1 2).bytes) * 256))
    ∧ (let s := entering 0xFF80 [{ store1 2 with id := 1, routed := true, branches := [{ out := 0, subch := 0, epoch := 0 }] }]
       entersAt s ∧ s.blk.waitsBehind (store1 2) 0 = true)
    ∧ (let s := entering 0x0100 [{ stored 1 256 with hdr := (store1 256).hdr + 2 ^ 78 }]
       entersAt s ∧ s.blk.waitsBehind (store1 2) 0 = false ∧ s.blk.rf (rt 0x080) 7 0 < s.blk.rf (rt 0x080) 15 8
       ∧ s.blk.rf (rt 0x080) 15 8 * s.blk.hamperStore ≤ (s.blk.hamperBytes false + s.blk.hamperBytes true + (store1 2).bytes) * 256
       ∧ s.blk.pairBytes (store1 2) 9 7 < s.blk.pairBytes (store1 2) 9 8) := by and_intros <;> decide +kernel

/-- A chip and context other than the two of the last state hold nothing there. -/
theorem test_hyp_packetsForwarded_pairs :
    let s := entering 0x0100 [{ stored 1 256 with hdr := (store1 256).hdr + 2 ^ 78 }]
    ∀ y z, (y, z) ≠ (9, 8) → s.blk.pairBytes (store1 2) y z < s.blk.pairBytes (store1 2) 9 8 := by
  have h : (entering 0x0100 [{ stored 1 256 with hdr := (store1 256).hdr + 2 ^ 78 }]).blk.hampered.map (fun x => (hSrc x.1.hdr, hCtx x.1.hdr))
      = [(9, 8)] := by decide +kernel
  have big : (store1 2).bytes < (entering 0x0100 [{ stored 1 256 with hdr := (store1 256).hdr + 2 ^ 78 }]).blk.pairBytes (store1 2) 9 8 := by
    decide +kernel
  intro s y z hyz
  refine Nat.lt_of_le_of_lt ?_ big
  have empty : ((s.blk.hampered.filter fun x => decide (x.2.st = .hamper) && hSrc x.1.hdr == y && hCtx x.1.hdr == z)) = [] := by
    rw [List.filter_eq_nil_iff]
    intro x hx hc
    have := List.mem_map_of_mem (f := fun x => (hSrc x.1.hdr, hCtx x.1.hdr)) hx
    rw [h, List.mem_singleton, Prod.mk.injEq] at this
    simp [this] at hc
    exact hyz (by rw [← hc.1.2, ← hc.2])
  simp only [Block.pairBytes, empty]
  split <;> simp

/-- A multicast store from chip 0 to every chip of a line of four, at chip 1 and as chip 0 sends it; what waits leaves the Hamper. -/
def treeHdr : Slot := BitVec.ofNat 128 (put 0xA 6 122 + put (2 ^ 14) 15 105 + put 7 12 78)
def onLine (self : Nat) (b : Block) : Block := { ((b.setRf wSealLeft 63 63 1).setRf wSeal 63 49 0x0C00).setRf wSeal 14 0 self with
  ports := (b.ports.set 0 { st := 5, txLimit := List.replicate 32 9 }).set 1 { st := 5, txLimit := List.replicate 32 9 } }
def fromLeft : FPkt := { fp 1 with hdr := treeHdr, input := 1, data := [1] }
def atOne : State := up fun b => onLine 1 { b with fwd := { b.fwd with pkts := [fromLeft], nextId := 9 } }
def atZero : State := up fun b => onLine 0 { b with fwd := { b.fwd with inject := [{ hdr := treeHdr, data := [1] }], nextId := 9 } }

theorem test_hyp_packetsForwarded_tree :
    (let lane := 2 * opClass 0xA
     atOne.carries ∧ (atOne.blk.fwd.pkts.find? fun q => q.input == 1 && !q.routed && opClass (hOp q.hdr) == lane / 2) = some fromLeft
     ∧ fromLeft.sub = lane % 2 ∧ atOne.blk.fpkt? 7 = some fromLeft ∧ b2n (bit fromLeft.hdr 120) = atOne.blk.fwd.current
     ∧ treeOp (hOp treeHdr) = true ∧ atOne.blk.treeIn treeHdr 1 ∧ fromLeft.branches = [] ∧ atOne.blk.member treeHdr ∧ fromLeft.whole = true
     ∧ (∀ k < 6, atOne.blk.treeOut treeHdr k → atOne.blk.portUp k = true ∧ atOne.blk.hop 1 0 k ≠ none)
     ∧ atOne.blk.treeOut treeHdr 0 ∧ ¬atOne.blk.treeOut treeHdr 1)
    ∧ (atZero.carries ∧ (atZero.blk.fwd.inject.find? fun p => opClass (hOp p.hdr) == opClass 0xA) = some { hdr := treeHdr, data := [1] }
     ∧ atZero.blk.fpkt? 9 = none ∧ b2n (bit treeHdr 120) = atZero.blk.fwd.current ∧ atZero.blk.treeIn treeHdr 6
     ∧ (∀ k < 6, atZero.blk.treeOut treeHdr k → atZero.blk.portUp k = true ∧ atZero.blk.hop 6 0 k ≠ none)
     ∧ atZero.blk.treeOut treeHdr 0 ∧ atZero.blk.treeOut treeHdr 1) := by and_intros <;> decide +kernel

/-- A port of INIT that has one credit message to come, and a copy that has left the Hamper. -/
theorem test_hyp_packetsForwarded_release :
    (let s := up fun b => agreed { b with
       ports := b.ports.set 0 { st := 4, initGot := true, initAcked := true, advs := [5], txLimit := List.replicate 32 9 }
       fwd := { b.fwd with nextId := 9, nextOrder := 5, pkts := [stored 3 2] } }
     s.carries ∧ s.blk.link 0 = 4 ∧ (s.blk.port 0).advs = [5] ∧ ∃ p ∈ s.blk.fwd.pkts, ∃ x ∈ p.branches, x.out = 0 ∧ x.st = .hamper)
    ∧ (let s := up fun b => agreed { b with
         ports := b.ports.set 0 { st := 5, txLimit := List.replicate 32 9 }
         fwd := { b.fwd with nextId := 9, nextOrder := 5, pkts := [{ stored 3 2 with
           branches := [{ out := 0, subch := 0, epoch := 0, order := 3 }] }] } }
       s.carries ∧ s.blk.committed 0 2 = none ∧ ∃ p ∈ s.blk.fwd.pkts, ∃ x ∈ p.branches, x.out = 0 ∧ x.order ≠ 0 ∧ x.st = .waiting) := by
  and_intros <;> decide +kernel

/-- A chip with edges, aligned; with a period that waits for the edge; a master. -/
def ticking (f : Block → Block := id) : State := up fun b => f { b.setRf wTimeStatus 63 63 1 with
  time := { b.time with aligned := true, skip := 2, tick := 10, edge := 1000 } }

theorem test_hyp_tickEdges : ticking.carries ∧ ticking.blk.ticks = true ∧ ticking.blk.time.aligned = true
    ∧ ticking.blk.time.periodDue = none
    ∧ (let s := ticking fun b => { b with time := { b.time with periodDue := some 1024 } }
       s.carries ∧ s.blk.ticks = true ∧ s.blk.time.aligned = true ∧ s.blk.time.periodDue = some 1024 ∧ periodOk 1024 = true)
    ∧ (let s := ticking fun b => { b.setTs 61 61 1 with time := { b.time with aligned := false } }; s.blk.ticks = true ∧ s.blk.time.aligned = false)
    ∧ up.carries ∧ up.blk.ticks = false ∧ up.blk.isMaster = false
    ∧ (let s := ticking fun b => b.setTs 61 61 1; s.carries ∧ s.blk.isMaster = true ∧ periodOk (fld (1024 : Word) 20 0) = true) := by
  decide +kernel

/-- The telemetry ring is on, every tick, with and without a free slot; TEMP at 110 °C and beneath. -/
theorem test_hyp_tickEdges_telemetry : (∀ x ∈ [(8, true), (0, false)],
      let s := ticking fun b => ((b.setRf (cn 0x050) 3 0 x.1).setRf (cn 0x058) 63 63 1).setRf (cn 0x058) 47 32 1
      s.carries ∧ s.blk.ticks = true ∧ bit (s.blk.peek (cn 0x058)) 63 = true
      ∧ (s.blk.time.tick + 1 + s.blk.time.skip) % 2 ^ 48 % max 1 (s.blk.rf (cn 0x058) 47 32) = 0
      ∧ (s.blk.ringFree (cn 0x050) (cn 0x058) && !s.blk.rst.closed) = x.2)
    ∧ (880 : Int) ≤ signed 16 880 ∧ signed 16 879 < 880 ∧ 1 < ticking.blk.ports.length := by and_intros <;> decide +kernel

/-- The FOLD of stream 1, at counter 3 of the program [FENCE, instruction `i`, FENCE]. -/
def foldC : Cmd := { id := 5, stream := 1, ctx := 7, qindex := 3, desc := d2 0x13 0 0 0 0 0 [0, 0, 0, 11, 12, 13, 14, 15], timeoutMs := 33, timer := some 0 }
def foldA : List Word := (List.replicate 64 0).mapIdx fun k _ =>
  if k == 6 then fa 0 3 0 else if k == 7 then fa 0 0 4096 else if k == 8 then 64 else if k == 9 then fa 1 3 64 else if k == 10 then 100 else 0
def atThree : Prog := { st := .issuing, cmd := 5, pc := 3, entry := 0, a := foldA, n0 := 1 }
def folding (i : Nat) (p : Prog := atThree) (extra : List Cmd := []) (f : Block → Block := id) : State := up fun b => agreed (f { b with
  req := { b.req with cmds := foldC :: extra, nextCmd := 9 }, fold := { b.fold with progs := b.fold.progs.set 1 p, store := [(2, BitVec.ofNat 128 (9 * 2 ^ 124)), (3, BitVec.ofNat 128 i), (4, BitVec.ofNat 128 (9 * 2 ^ 124))] } })

/-- An instruction word: the opcode, three operands and the rest. -/
def ins (op x y z rest : Nat) : Nat := op * 2 ^ 124 + put (4 * x) 8 112 + put (4 * y) 8 104 + put z 8 96 + rest

abbrev fetched (i op : Nat) : Prop := (folding i).carries ∧ (folding i).blk.fold.bad.contains ((folding i).blk.prog 1).pc = false ∧ (folding i).blk.foldCmd 1 = some foldC ∧ (folding i).blk.fetches 1 op
  ∧ (folding i).blk.oneFold 1

/-- One word of each data instruction: registers 6 remote, 7 local, 8 a length, 9 a remote counter. -/
abbrev dataI (op : Nat) : Nat := if op = 4 then ins 4 7 7 24 (put 8 6 90) else if op = 5 then ins 5 7 7 0 (put 8 6 98) else
  if op = 6 then ins 6 9 0 0 0 else if op = 2 then ins 2 7 6 0 (put 8 6 98) else ins op 6 7 0 (put 8 6 98)

theorem test_hyp_dataInstructions : (∀ op ∈ [1, 2, 3, 4, 5, 6], fetched (dataI op) op)
    ∧ (∀ op ∈ [1, 2, 3, 5, 6], fld (BitVec.ofNat 128 (dataI op)) 123 120 = 0 ∧ fld (BitVec.ofNat 128 (dataI op)) 77 0 = 0)
    ∧ (let b := (folding 0).blk
       b.badAddr (fa 0 3 0) true false = false ∧ b.isLocal (fa 0 0 4096) = true ∧ b.badAddr (fa 0 3 0) false true = false
       ∧ b.badAddr (fa 1 3 64) false true = false ∧ faClass (fa 1 3 64) = 1 ∧ faClass (fa 0 3 0) ≠ 1 ∧ faOff (fa 0 3 0) % 4096 = 0
       ∧ faOff (fa 0 0 4096) % 4096 = 0 ∧ b.cmd? b.req.nextCmd = none ∧ (b.prog 1).len 8 = 64)
    ∧ (∀ x ∈ [(6, fa 0 3 0), (7, fa 0 0 4096), (9, fa 1 3 64)], atThree.operand (4 * x.1) = some x.2)
    ∧ (let i := BitVec.ofNat 128 (dataI 4)
       bit i 123 = false ∧ bit i 122 = false ∧ bit i 121 = false ∧ bit i 120 = false ∧ fld i 47 0 = 0 ∧ fld i 95 90 = 8) := by decide +kernel

/-- A reserved bit of each data instruction set; an operand with IDX whose register has no stride register. -/
theorem test_hyp_dataInstructions_stops : (∀ op ∈ [1, 2, 3, 4, 5, 6], fetched (dataI op + 2 ^ 123) op
      ∧ fld (BitVec.ofNat 128 (dataI op + 2 ^ 123)) 123 122 ≠ 0)
    ∧ (∀ op ∈ [1, 2, 3, 4, 5, 6], fetched (ins op 63 0 0 (2 ^ 113)) op ∧ fld (BitVec.ofNat 128 (ins op 63 0 0 (2 ^ 113))) 123 120 = 0
      ∧ fld (BitVec.ofNat 128 (ins op 63 0 0 (2 ^ 113))) 95 0 = 0
      ∧ atThree.operand (fld (BitVec.ofNat 128 (ins op 63 0 0 (2 ^ 113))) 119 112) = none) := by and_intros <;> decide +kernel

/-- A PUTR with WRING between spans of whole MX blocks. -/
theorem test_hyp_dataInstructions_wring : let w := ins 3 6 7 0 (put 8 6 98 + 2 ^ 121 + put 28 8 67)
    fetched w 3 ∧ (let i := BitVec.ofNat 128 w
      fld i 123 122 = 0 ∧ fld i 66 0 = 0 ∧ bit i 121 = true ∧ (folding w).blk.agreed 3 = true ∧ fld i 77 76 ≠ 3
      ∧ fld i 74 67 = 28 ∧ atThree.operand 28 = some (fa 0 0 4096) ∧ atThree.len (fld i 103 98) % wringBlk (b2n (bit i 75)) = 0) := by
  decide +kernel

def dataC : Cmd := { id := 6, stream := 1, ctx := 7, qindex := 3, desc := [], ofFold := true, bytesOk := 8 }

theorem test_hyp_controlInstructions :
    (∀ x ∈ [(ins 7 0 0 0 (put 5 16 104), 7), (ins 7 0 0 40 (put 5 16 104), 7), (ins 8 0 0 0 0, 8), (ins 8 10 0 0 (2 ^ 120), 8),
      (ins 8 0 0 0 (2 ^ 120), 8), (ins 9 0 0 0 0, 9), (ins 0xB 0 0 0 0, 0xB), (ins 0xA 0 0 0 (put 2 14 104 + put 9 20 78), 0xA),
      (ins 0xA 0 0 0 (put 2 14 104 + put 2 20 78), 0xA)], fetched x.1 x.2)
    ∧ (let b := (folding 0).blk
       b.mayRun 1 4 ∧ b.mayRun 1 2 ∧ b.ctrBad.contains 5 = false ∧ atThree.operand 0 = some 0 ∧ reaches (b.ctrVal 5) 0 = true
       ∧ atThree.operand 40 = some 100 ∧ reaches (b.ctrVal 5) 100 = false ∧ b.time.tick < fld (100 : Word) 47 0
       ∧ fld (100 : Word) 47 0 ≤ b.time.tick + 2 ^ 24 ∧ fld (0 : Word) 47 0 ≤ b.time.tick ∧ b.foldOpen 1 = false)
    ∧ (∀ x ∈ [ins 9 0 0 0 0, ins 0xB 0 0 0 0], let s := folding x atThree [dataC]
       s.carries ∧ s.blk.foldCmd 1 = some foldC ∧ s.blk.oneFold 1 ∧ s.blk.fetches 1 (x / 2 ^ 124) ∧ s.blk.foldOpen 1 = true)
    ∧ (let i := BitVec.ofNat 128 (ins 7 0 0 40 (put 5 16 104))
       fld i 123 120 = 0 ∧ fld i 95 0 = 0 ∧ fld i 119 104 = 5 ∧ fld i 103 96 = 40)
    ∧ (let i := BitVec.ofNat 128 (ins 8 10 0 0 (2 ^ 120)); fld i 123 121 = 0 ∧ fld i 111 0 = 0 ∧ bit i 120 = true ∧ fld i 119 112 = 40)
    ∧ (∀ n ∈ [2, 9], let i := BitVec.ofNat 128 (ins 0xA 0 0 0 (put 2 14 104 + put n 20 78))
       fld i 123 121 = 0 ∧ fld i 77 0 = 0 ∧ bit i 120 = false ∧ fld i 103 98 = 0 ∧ fld i 119 118 ≠ 3 ∧ fld i 117 104 = 2 ∧ fld i 97 78 = n) := by
  and_intros <;> decide +kernel

/-- A program at the second word of its region whose LOOP names the region before. -/
def outside : State := folding 0 { atThree with entry := 1024, pc := 1027 } [] fun b => { b with
  fold := { b.fold with store := [(1027, BitVec.ofNat 128 (ins 0xA 0 0 0 (put 2 14 104 + put 9 20 78)))] } }

/-- The stops: a poisoned counter, an operand that is bad or too far away, a target outside the region, a reserved bit. -/
theorem test_hyp_controlInstructions_stops : (let s := folding (ins 7 0 0 0 (put 5 16 104)) atThree [] fun b => { b with ctrBad := [5] }
      s.carries ∧ s.blk.foldCmd 1 = some foldC ∧ s.blk.oneFold 1 ∧ s.blk.fetches 1 7 ∧ s.blk.ctrBad.contains 5 = true)
    ∧ (∀ x ∈ [(ins 7 0 0 0xFE (put 5 16 104), 7), (ins 8 63 0 0 (2 ^ 113 + 2 ^ 120), 8), (ins 8 6 0 0 (2 ^ 120), 8), (ins 7 0 0 0 (2 ^ 123), 7),
        (ins 8 0 0 0 (2 ^ 123), 8), (ins 9 0 0 0 1, 9), (ins 0xA 0 0 0 (2 ^ 123), 0xA), (ins 0xB 0 0 0 1, 0xB)], fetched x.1 x.2)
    ∧ atThree.operand 0xFE = none ∧ (folding 0).blk.time.tick + 2 ^ 24 < fld (fa 0 3 0) 47 0 ∧ atThree.operand 24 = some (fa 0 3 0)
    ∧ outside.carries ∧ outside.blk.foldCmd 1 = some foldC ∧ outside.blk.oneFold 1 ∧ outside.blk.fetches 1 0xA := by
  and_intros <;> decide +kernel

/-- Every opcode's turn, where an error was found at its counter since it was written. -/
theorem test_hyp_programsRun_bad : ∀ op ∈ [1, 2, 3, 4, 5, 6, 7, 8, 9, 0xA, 0xB],
    let s := folding (ins op 0 0 0 0) atThree [] fun b => { b with fold := { b.fold with bad := [3] } }
    s.carries ∧ s.blk.foldCmd 1 = some foldC ∧ s.blk.oneFold 1 ∧ (s.blk.prog 1).cmd ≠ 0 ∧ s.blk.fetches 1 op
    ∧ s.blk.fold.bad.contains (s.blk.prog 1).pc = true := by decide +kernel

/-- A register table with the window 4,096 to 8,192, a staged packet and the PASS that takes it. -/
def regTable : List Word := (List.range 64).map fun k => if k == 62 then 4096 else if k == 63 then 8192 else word k
def stagedP : Staged := { id := 3, stream := 1, src := 2, off := 4096, span := 64, data := [], profile := 0, profileAB := 0, spilled := false }
def passP : Pass :=
  { cmd := 6, inA := 4096, loc := 4096, out := 0, len := 128, up := 2, outp := 0, keep := false, final := false, ctr := 0, lctr := 0 }
abbrev serves (s : State) : Prop := s.carries ∧ s.blk.foldCmd 1 = some foldC ∧ s.blk.oneFold 1 ∧ (s.blk.prog 1).cmd ≠ 0 ∧ s.blk.mayRun 1 4

theorem test_hyp_programsRun :
    (let s := folding 0 { atThree with st := .starting, args := some regTable, entry := 2 }
     serves s ∧ s.blk.mayRun 1 2 ∧ regTable.length = 64 ∧ s.blk.up = true ∧ s.blk.rst.draining = false
     ∧ s.blk.rst.engines.contains 12 = false ∧ ∀ t < 256, t ≠ 1 → (s.blk.prog t).win = none)
    ∧ (let s := folding 0 { atThree with st := .wait, waitCtr := 5, waitTgt := 0 }
       serves s ∧ (s.blk.prog 1).st = .wait ∧ (s.blk.prog 1).met = 0 ∧ s.blk.ctrBad.contains 5 = false ∧ reaches (s.blk.ctrVal 5) 0 = true)
    ∧ (let s := folding 0 { atThree with st := .wait, waitCtr := 5, waitTgt := 7 }
       serves s ∧ (s.blk.prog 1).st = .wait ∧ (s.blk.prog 1).met = 0 ∧ s.blk.ctrBad.contains 5 = false ∧ reaches (s.blk.ctrVal 5) 7 = false)
    ∧ (∀ m ∈ [1, 2], let s := folding 0 { atThree with st := .wait, waitCtr := 5, waitTgt := 7, met := m }
       serves s ∧ (s.blk.prog 1).st = .wait ∧ (s.blk.prog 1).met = m)
    ∧ (let s := folding 0 { atThree with st := .starting, args := some regTable, entry := 2 } [] fun b =>
         { b with fold := { b.fold with progs := b.fold.progs.set 2 { cmd := 77, win := some (0, 4097) } } }
       serves s ∧ (s.blk.prog 1).st = .starting ∧ (s.blk.prog 2).win = some (0, 4097) ∧ 4096 < 4097 ∧ 0 < 8192)
    ∧ (let s := folding 0 { atThree with st := .tick, tickTgt := 0 }
       serves s ∧ (s.blk.prog 1).st = .tick ∧ (s.blk.prog 1).tickTgt ≤ s.blk.time.tick)
    ∧ (let s := folding 0 { atThree with pass := some passP, head := some 6 } [dataC] fun b => { b with fold := { b.fold with staged := [stagedP], nextStaged := 4 } }
       serves s ∧ (s.blk.prog 1).pass = some passP ∧ (s.blk.prog 1).head = some 6
       ∧ stagedP.id < s.blk.fold.nextStaged ∧ (s.blk.fold.staged.find? fun x => x.stream == 1 && x.src == passP.up && decide (passP.inA ≤ x.off)
          && decide (x.off + x.span ≤ passP.inA + passP.len)) = some stagedP)
    ∧ (let s := folding 0 atThree [dataC, { dataC with id := 7, tags := 1 }]
       serves s ∧ s.blk.cmd? 6 = some dataC ∧ s.blk.covered dataC = true ∧ { dataC with id := 7, tags := 1 } ∈ s.blk.req.cmds
       ∧ (s.blk.prog 1).st ≠ .stopping ∧ foldC.id ≠ 6)
    ∧ (let s := folding 0 { atThree with st := .fence } [dataC] fun b => { b with time := { b.time with edge := 10 ^ 12 } }
       serves s ∧ s.blk.creased = false ∧ msUnits foldC.timeoutMs < s.blk.time.edge - (s.blk.prog 1).since) := by
  and_intros <;> decide +kernel

/-! ### Links -/

/-- A flit with its CRC. -/
def flit (typ seq ack : Nat) (body : List Slot := List.replicate 32 emptySlot) : Flit :=
  let h := word (put seq 20 44 + put ack 20 24 + put typ 2 22)
  { hdr := h, body, echo := 0, crc := BitVec.ofNat 32 (crc32 (flitBytes h body 0)) }

/-- Port 1 down, with a test; a chip whose core restarts. -/
def testing (m : Nat) (f : Block → Block := id) : State := port { st := 0 } fun b => f ((sealed b).poke (ln 1 0x098) (word (m * 2 ^ 61 + 3 * 2 ^ 59)))
def restarts (st : Nat) : State := port { st } fun b => { sealed b with boot := { b.boot with restarting := true } }

theorem test_hyp_linkControl : (port { st := 5 } sealed).carries ∧ fld (0 : Word) 62 61 = 0 ∧ (port { st := 5 } sealed).blk.link 1 = 5
    ∧ fld (word (2 ^ 62)) 62 61 ≠ 0 ∧ fld (word (2 ^ 61)) 61 61 ≠ 0 ∧ fld (word (2 ^ 62)) 63 62 ≠ 0
    ∧ fld (0 : Word) 63 63 = 0 ∧ fld (0 : Word) 61 61 = 0 ∧ fld (0 : Word) 63 62 = 0 ∧ (port { st := 5 } sealed).blk.trainable 1 = true
    ∧ (restarts 3).carries ∧ (restarts 3).blk.boot.restarting = true ∧ (restarts 3).blk.trainable 1 = true ∧ (restarts 3).blk.link 1 = 3
    ∧ up.carries ∧ up.blk.trainable 1 = false ∧ up.blk.link 1 ≠ 3
    ∧ (port { st := 3 } sealed).carries ∧ (port { st := 3 } sealed).blk.link 1 = 3 ∧ (port { st := 3 } sealed).blk.trainable 1 = true
    ∧ (port { st := 3 } sealed).blk.boot.restarting = false
    ∧ (let s := port { st := 0 } fun b => (sealed b).setRf (lk 1 0x048) 60 60 1
       s.carries ∧ s.blk.link 1 = 0 ∧ s.blk.rf (lk 1 0x048) 60 60 = 1 ∧ s.blk.rf (ln 1 0x098) 63 61 = 0 ∧ s.blk.trainable 1 = true) := by
  decide +kernel

/-- A slip of 5 bits of lane 3 under way. -/
def slipping : State := port { st := 1 } fun b => { b with lanes := b.lanes.modify 1 fun l =>
  { l with slip := some (3, 5), rx := Deframer.fresh 2 } }

theorem test_hyp_portRegisters :
    (let s := port {} fun b => b.setRf (lk 1 0x078) 5 0 34
     s.carries ∧ s.blk.ports[1]?.isSome = true ∧ s.blk.rf (lk 1 0x078) 5 5 = 1 ∧ s.blk.rf (lk 1 0x078) 4 0 = 2)
    ∧ (port {}).blk.rf (lk 1 0x078) 5 5 = 0
    ∧ (∀ x ∈ [(416, true), (417, false)], let lim := (({} : PortSt).limits.set 2 (fld (word (x.1 * 2 ^ 48)) 63 48))
       (decide (((List.range 16).map fun k => lim.getD (2 * k + 0) 0).sum ≤ 2048)) = x.2
       ∧ ((List.range 16).map fun k => lim.getD (2 * k + 1) 0).sum ≤ 65536)
    ∧ (let v := word (256 * 2 ^ 40); ((List.range 8).map fun c => fld v (8 * c + 7) (8 * c)).sum ≤ 256 ∧ fld v 63 56 = 0)
    ∧ fld (word (2 ^ 56)) 63 56 ≠ 0
    ∧ (let s := port { st := 1 } fun b => b.setRf (ln 1 0x040) 63 60 6
       s.carries ∧ s.blk.bitslipOk 1 0x305 = true ∧ s.blk.bitslipOk 1 0x37F = false ∧ s.blk.rf (ln 1 0x068) 63 63 = 0)
    ∧ slipping.carries ∧ (slipping.blk.lanes[1]?.map fun l => l.slip) = some (some (3, 5)) ∧ (((port {}).blk.lanes[1]?).map fun l => l.slip) = some none
    ∧ (slipping.blk.lane 1).lanes[3]?.isSome = true ∧ (slipping.blk.lane 1).rx.lanes[3]?.isSome = true := by
  and_intros <;> decide +kernel

theorem test_hyp_portRegisters_tests :
    fld (word (4 * 2 ^ 61)) 63 61 ≤ 4 ∧ (port {}).carries ∧ (port {}).blk.link 1 = 0 ∧ 4 < fld (word (5 * 2 ^ 61)) 63 61
    ∧ (port {}).blk.lanes[1]?.isSome = true
    ∧ (port { st := 5 }).carries ∧ (port { st := 5 }).blk.link 1 = 5 ∧ fld (word (2 ^ 61 + 2 * 2 ^ 57)) 58 57 = 2
    ∧ bitN (port { st := 0 } fun b => b.setRf wCode 63 60 2).blk.fusedRates 2 = false ∧ bitN (port { st := 0 } fun b => b.setRf wCode 63 60 0).blk.fusedRates 2 = true := by
  and_intros <;> decide +kernel

/-- A port in UP that has NORMAL flit 7 outstanding and is asked for it again. -/
def outFlit7 : OutFlit := { seq := 7, typ := 0, body := List.replicate 32 emptySlot, echo := 0, hdrs := [], epochs := [] }
def again7 : PortSt := { st := 5, n := 8, o := 7, e := 9, replay := some 7, flits := [outFlit7] }
/-- A header of a LOAD is committed to port 0, in UP with credits. -/
def oneReady : State := up fun b => agreed { b with
  ports := b.ports.set 0 { st := 5, n := 7, o := 7, e := 9, txLimit := List.replicate 32 9 }
  fwd := { b.fwd with nextId := 9, pkts := [{ fp 1 with routed := true, branches := [{ out := 0, subch := 0, epoch := 0, members := 0, st := .committed }] }] } }

theorem test_hyp_flitSending :
    (let s := port { st := 5, nakDue := true, n := 7, e := 9 }; s.carries ∧ s.blk.link 1 = 5 ∧ (s.blk.port 1).nakDue = true
      ∧ s.blk.lanes[1]?.isSome = true)
    ∧ (let s := port again7; s.carries ∧ s.blk.link 1 = 5 ∧ (s.blk.port 1).nakDue = false ∧ (s.blk.port 1).replay = some 7
       ∧ (s.blk.port 1).flits.find? (fun f => f.seq == 7) = some outFlit7 ∧ outFlit7.spilled = false)
    ∧ (let s := port { st := 4, n := 7, o := 7, e := 9 }
       s.carries ∧ s.blk.link 1 = 4 ∧ (s.blk.port 1).nakDue = false ∧ (s.blk.port 1).replay = none ∧ (s.blk.port 1).initSent = false
       ∧ (s.blk.port 1).outstanding < s.blk.window 1)
    ∧ (let s := port { st := 5, n := 7, o := 7, e := 9 }
       s.carries ∧ s.blk.link 1 = 5 ∧ (s.blk.port 1).nakDue = false ∧ (s.blk.port 1).replay = none ∧ ∀ i < 16, s.blk.laneReady 1 i = false)
    ∧ (let s := oneReady
       s.carries ∧ s.blk.lanes[0]?.isSome = true ∧ (s.blk.port 0).txCur = none ∧ (s.blk.port 0).outstanding < s.blk.window 0
       ∧ s.blk.laneReady 0 2 = true ∧ (∀ i < 16, i ≠ 2 → s.blk.laneReady 0 i = false)
       ∧ ((s.blk.committed 0 2).map fun x => (x.2.sent, x.2.kill)) = some (0, false)) := by and_intros <;> decide +kernel

/-- A port in SEAM with its check open, and with all that R414 asks for; one without power. -/
theorem test_hyp_flitSending_open : (port { st := 2 }).blk.seamOpen 1 ∧ ∀ k < 6, (port { st := 2 }).blk.link k = 2 → k = 1 := by
  have none : ((port { st := 2 }).blk.lane 1).peerResult = none := by decide +kernel
  exact ⟨⟨by decide +kernel, fun _ h => absurd (none.symm.trans h) nofun, Or.inl (by decide +kernel)⟩, by decide +kernel⟩

theorem test_hyp_flitSending_seam :
    (let s := port { st := 2 } fun b => { b.setRf (ln 1 0x088) 59 52 2 with lanes := b.lanes.modify 1 fun l =>
       { l with result := some 0, peerResult := some (0, 2), flights := List.replicate 256 5 } }
     s.carries ∧ s.blk.link 1 = 2 ∧ s.blk.seamReady 1)
    ∧ (let s := port {} fun b => { b with lanes := b.lanes.modify 1 fun l => { l with powered := false } }
       s.carries ∧ s.blk.link 1 = 0 ∧ (s.blk.lane 1).powered = false ∧ ∀ k < 6, s.blk.link k ≠ 2)
    ∧ (∀ m ∈ [1, 2], let s := testing m fun b => { b with lanes := b.lanes.modify 1 fun l =>
         { l with gen := List.replicate 16 5, chk := List.replicate 16 5 } }
       s.carries ∧ s.blk.testMode 1 = m ∧ s.blk.mission 1 = false ∧ ∀ k < 16, (s.blk.lane 1).chk[k]? = (s.blk.lane 1).gen[k]?
         ∧ k < (s.blk.lane 1).prbs.length ∧ ((s.blk.lane 1).rx.lanes[k]?.all fun y => y.drop == 0 && y.len == 0 && y.bits == 0) = true) := by
  and_intros <;> decide +kernel

/-- Outside INIT and UP: SEAM, step 4 of training, a test of each kind, DOWN. -/
theorem test_hyp_flitSending_other : (port { st := 2 }).blk.link 1 = 2
    ∧ (let s := port { st := 1 } fun b => b.setRf (ln 1 0x040) 63 60 4
       s.carries ∧ s.blk.link 1 = 1 ∧ s.blk.lstep 1 = 4 ∧ s.blk.mission 1 = false)
    ∧ (let s := testing 2 fun b => b.setRf (ln 1 0x098) 56 56 1; s.carries ∧ s.blk.mission 1 = true ∧ s.blk.link 1 = 0)
    ∧ (∀ m ∈ [1, 2, 4], (testing m).carries ∧ (testing m).blk.mission 1 = false ∧ (testing m).blk.testMode 1 = m)
    ∧ (let s := port { st := 1 } fun b => b.setRf (ln 1 0x040) 63 60 2; s.carries ∧ s.blk.link 1 = 1 ∧ s.blk.lstep 1 < 3)
    ∧ up.blk.link 1 = 0 ∧ up.blk.testMode 1 = 0 ∧ up.blk.mission 1 = false := by and_intros <;> decide +kernel

/-- A port in UP that expects flit 3 and has flit 7 outstanding; one in INIT; the INIT flit of its peer; a header without data. -/
def upPort : PortSt := { st := 5, mode := 1, n := 8, o := 7, e := 3, rxLimit := List.replicate 32 9 }
def initPort : PortSt := { st := 4, mode := 1, n := 1, o := 0, e := 0, version := 2 }
def initFlit : Flit := flit 3 0 1 (BitVec.ofNat 128 (put 1 8 120 + put 2 8 112 + put 1 2 110)
  :: ((List.range 8).map (fun k => BitVec.ofNat 128 (put 2 8 120 + put k 3 117 + 5)) ++ List.replicate 23 0))
def head1 : Slot := BitVec.ofNat 128 (put 1 6 122 + put 3 15 80)
def tailS : List Slot := List.replicate 31 emptySlot

/-- A port of framing E1 whose stream holds `cs`, and lanes that bring nothing more. -/
def framing (q : PortSt) (cs : List Chunk := []) (f : Block → Block := id) : State := port q fun b =>
  f { b with lanes := b.lanes.modify 1 fun l => { l with rx := { Deframer.fresh 1 with chunks := cs } } }
def still : Air := List.replicate 16 []
/-- The bits of a flit. -/
def ofFlit (f : Flit) : Chunk := { len := 4224, val := flitBits f.hdr f.body f.echo.toNat f.crc.toNat }
/-- The flit `f` is whole at a port in the state `q`, and no word has a parity error. -/
abbrev reaches1 (q : PortSt) (f : Flit) : Prop := let s := framing q [ofFlit f]
  s.carries ∧ s.blk.lanes[1]?.isSome = true
  ∧ (let r := (s.blk.lane 1).rx.arrive (s.blk.logical 1 still) 0
     r.1.flit.map (fun x => x.1) = some f ∧ r.2.odd = false)

theorem test_hyp_flitArrivals : (framing upPort).carries ∧ (framing upPort).blk.link 1 = 5 ∧ 0 < (framing upPort).blk.rf (lk 1 0x050) 47 32
    ∧ (framing initPort).carries ∧ (framing initPort).blk.link 1 = 4 ∧ (framing upPort).blk.framed 1 = true ∧ (port {}).blk.framed 1 = false
    ∧ (let r := ((framing upPort).blk.lane 1).rx.arrive ((framing upPort).blk.logical 1 still) 0
       r.1.flit = none ∧ r.2.odd = false)
    ∧ upPort.nakLast = none ∧ upPort.badPos = [] ∧ upPort.rxCur = none ∧ upPort.o ≠ upPort.n ∧ upPort.replay = none
    ∧ hOp head1 ≠ 0 ∧ hOp head1 ≠ 0x3F ∧ hSlots head1 = 0 ∧ (∀ x ∈ upPort.rxLanes, x.1 ≠ 2 * opClass (hOp head1) + b2n (bit head1 121))
    ∧ (let k := laneCtr (2 * opClass (hOp head1) + b2n (bit head1 121))
       subMod 24 (upPort.rxUsed.getD k 0) (upPort.rxBack.getD k 0) + 1 ≤ upPort.rxLimit.getD k 0)
    ∧ initPort.initGot = false ∧ (framing upPort).blk.fpkt? (framing upPort).blk.fwd.nextId = none := by
  and_intros <;> decide +kernel

theorem test_hyp_flitArrivals_empty : (∀ x ∈ tailS, x = emptySlot) ∧ ∀ x ∈ (flit 0 3 8).body, x = emptySlot :=
  ⟨fun _ h => List.eq_of_mem_replicate h, fun _ h => List.eq_of_mem_replicate h⟩

theorem test_hyp_flitArrivals_idle : reaches1 upPort (flit 1 3 8) ∧ goodFlit (flit 1 3 8) = true ∧ flType (flit 1 3 8).hdr = 1
    ∧ 0 < subMod 20 (flAck (flit 1 3 8).hdr) upPort.o ∧ subMod 20 (flAck (flit 1 3 8).hdr) upPort.o ≤ upPort.outstanding := by
  and_intros <;> decide +kernel

theorem test_hyp_flitArrivals_normal : reaches1 upPort (flit 0 3 8 (head1 :: tailS)) ∧ goodFlit (flit 0 3 8) = true
    ∧ flType (flit 0 3 8).hdr = 0 ∧ subMod 20 (flSeq (flit 0 3 8).hdr) upPort.e = 0
    ∧ goodFlit (flit 0 3 8 (head1 :: tailS)) = true ∧ (flit 0 3 8 (head1 :: tailS)).body = head1 :: [] ++ tailS
    ∧ goodFlit (flit 0 3 8 (1 :: tailS)) = true ∧ hOp 1 = 0 ∧ (1 : Slot) ≠ emptySlot := by and_intros <;> decide +kernel

/-- A flit whose CRC fails, and a port past its limit; a row whose parity fails. -/
def spoilt : Flit := { flit 1 3 8 with crc := 0 }
theorem test_hyp_flitArrivals_bad : reaches1 upPort spoilt ∧ goodFlit spoilt = false ∧ flType spoilt.hdr = 1
    ∧ (framing upPort [] fun b => b.setRf (lk 1 0x050) 47 32 0).blk.rf (lk 1 0x050) 47 32 = 0
    ∧ (let s := framing upPort [] fun b => { b with lanes := b.lanes.modify 1 fun l => { l with rx := { l.rx with lanes := l.rx.lanes.map fun x => { x with len := 64 } } } }
       let r := (s.blk.lane 1).rx.arrive (s.blk.logical 1 (List.replicate 16 [1])) 0
       s.carries ∧ s.blk.link 1 = 5 ∧ r.2.odd = true ∧ r.1.flit = none) := by and_intros <;> decide +kernel

theorem test_hyp_flitArrivals_nak : reaches1 upPort (flit 2 3 7) ∧ goodFlit (flit 2 3 7) = true ∧ flType (flit 2 3 7).hdr = 2
    ∧ flAck (flit 2 3 7).hdr = upPort.o := by and_intros <;> decide +kernel

theorem test_hyp_flitArrivals_init : reaches1 initPort initFlit ∧ goodFlit initFlit = true ∧ flType initFlit.hdr = 3
    ∧ subMod 20 (flSeq initFlit.hdr) initPort.e = 0 ∧ initPort.initOk initFlit = true ∧ initPort.initOk (flit 3 0 1) = false
    ∧ goodFlit (flit 3 0 1) = true := by
  and_intros <;> decide +kernel

/-- One CREDIT_ADV message is left; the port in UP takes none. -/
def lastAdv : PortSt := { initPort with initGot := true, initAcked := true, advs := [BitVec.ofNat 128 (put 2 8 120 + put 7 3 117 + 5)] }
theorem test_hyp_flitArrivals_adv : lastAdv.st = 4 ∧ lastAdv.advs = BitVec.ofNat 128 (put 2 8 120 + put 7 3 117 + 5) :: []
    ∧ (port lastAdv).carries ∧ upPort.st ≠ 4 := by and_intros <;> decide +kernel

theorem test_hyp_linkTimers : (∀ k ∈ [(0, true), (100, false)],
      let s := port { st := 5, replays := k.1, flits := [outFlit7] }
      s.carries ∧ s.blk.link 1 = 5 ∧ (s.blk.port 1).flits ≠ []
      ∧ decide ((s.blk.port 1).replays < max 1 (s.blk.rf (lk 1 0x050) 15 8)) = k.2)
    ∧ (port initPort).carries ∧ (port initPort).blk.link 1 = 4 ∧ (port upPort).carries ∧ (port upPort).blk.link 1 ≠ 4 := by decide +kernel

/-- A marker of E1 with nothing of a flit before it, at the tracked boundary, and off it, with 1,024 bits of a flit before it. -/
def markAir : Air := ({ Framer.fresh 1 with marks := 3, lanes := (List.range 16).map fun _ => { scr := 0, odd := some 0 } }).marker.out
def marking (cs : List Chunk) : State := framing { upPort with pos := 5 } cs fun b => { b with lanes := b.lanes.modify 1 fun l =>
  { l with rx := { l.rx with mark := 3, lanes := l.rx.lanes.map fun x => { x with drop := 1 } } } }
theorem test_hyp_linkTimers_marker :
    (let r := ((marking []).blk.lane 1).rx.marker ((marking []).blk.logical 1 markAir)
     r.map (fun x => (x.2.1, x.1.tracked, x.2.2.odd)) = some (some (0, 3), 0, false))
    ∧ (let s := marking [{ len := 1024, val := 0 }]
       let r := (s.blk.lane 1).rx.marker (s.blk.logical 1 markAir)
       s.carries ∧ s.blk.link 1 = 5 ∧
       r.map (fun x => (x.2.1, x.1.tracked, x.2.2.odd)) = some (some (0, 3), 3200, false)) := by and_intros <;> decide +kernel

/-! ### The pilot lane, training, the seam and time -/

def locked1 (b : Block) : Block := b.setRf (ln 1 0x040) 56 56 1
def laneM (f : LaneSt → LaneSt) (b : Block) : Block := { b with lanes := b.lanes.modify 1 f }
/-- Port 1 in the state `st`, in step `k` of training, with its pilot lane in lock and changed by `f`. -/
def trains (st k : Nat) (f : LaneSt → LaneSt := id) (g : Block → Block := id) : State :=
  port { st } fun b => g (laneM f (locked1 (sealed (b.setRf (ln 1 0x040) 63 60 k))))

/-- The blocks of a message, in the polarity in use; port 1 of `s` takes them, and they spell it. -/
def bl (m : PilotMsg) : List PilotBlock := (pilotBlocks true (m.ctl :: m.data) 0).1.map (BitVec.ofNat 66)
abbrev hears (s : State) (m : PilotMsg) : Prop := s.carries ∧ s.blk.lanes[1]?.isSome = true ∧ s.blk.pilotOn 1 = true
  ∧ (s.blk.pilotTake 1 (bl m)).2 = some m ∧ pmGood m = true

theorem test_hyp_pilotLane : (port {}).carries ∧ ((port {}).blk.lane 1).powered = true ∧ (port {}).blk.pilotLock 1 = false
    ∧ (port {}).blk.lanes[1]?.isSome = true ∧ (trains 0 0).carries ∧ (trains 0 0).blk.pilotLock 1 = true
    ∧ (∀ st ∈ [2, 4, 5], let s := port { st } (laneM fun l => { l with lossRunning := true })
       s.carries ∧ s.blk.pilotLock 1 = false ∧ (s.blk.lane 1).lossRunning = true ∧ s.blk.link 1 = st)
    ∧ (let s := trains 1 3 id fun b => laneM (fun l => { l with lossRunning := true }) (b.setRf (ln 1 0x040) 56 56 0)
       s.carries ∧ s.blk.link 1 = 1 ∧ 2 ≤ s.blk.lstep 1 ∧ s.blk.pilotLock 1 = false)
    ∧ ((port {} (laneM fun l => { l with powered := false })).blk.lane 1).powered = false
    ∧ (trains 1 1).carries ∧ ((trains 1 1).blk.lane 1).powered = true ∧ (trains 1 1).blk.testMode 1 = 0
    ∧ (trains 1 1).blk.link 1 = 1 ∧ (trains 1 1).blk.lstep 1 = 1 ∧ ((trains 2 0 fun l => { l with result := some 0 }).blk.lane 1).result = some 0 := by
  and_intros <;> decide +kernel

/-- An IDLE message before 63 data blocks; the same in the other polarity after a block that fills the descrambler. -/
def upright64 : List PilotBlock := bl (mkPilot 0 0 []) ++ List.replicate 63 1
def turned (m : List PilotBlock) : List PilotBlock := m.map fun x => BitVec.ofNat 66 (flipBlock x.toNat)
def idleAfterOnes : List PilotBlock := (pilotBlocks true [(mkPilot 0 0 []).ctl] (2 ^ 58 - 1)).1.map (BitVec.ofNat 66)
def turned64 : List PilotBlock := 1 :: turned idleAfterOnes ++ List.replicate 62 1

theorem test_hyp_pilotLane_lock : (upright64.length = 64 ∧ upright64.all headerOk = true ∧ pilotFinds false upright64 0 = true)
    ∧ (turned64.length = 64 ∧ turned64.all headerOk = true ∧ pilotFinds false turned64 0 = false ∧ pilotFinds true turned64 0 = true)
    ∧ (let m : List PilotBlock := List.replicate 16 3
       let h := ((trains 0 0).blk.lane 1).headers ++ (m.take 16).map headerOk
       (trains 0 0).blk.pilotOn 1 = true ∧ ((trains 0 0).blk.lane 1).headers.length ≤ 64
       ∧ 16 ≤ ((h.drop (h.length - 64)).filter fun ok => !ok).length)
    ∧ (∀ k < 4, let h := ((trains 0 0).blk.lane 1).headers ++ ((List.replicate 4 (1 : PilotBlock)).take (k + 1)).map headerOk
       ((h.drop (h.length - 64)).filter fun ok => !ok).length < 16) ∧ (port {}).blk.pilotOn 1 = false := by and_intros <;> decide +kernel

/-- A message that comes in the other polarity. -/
theorem test_hyp_pilotMessages_turned : let s := trains 1 3 fun l => { l with pilotRx := pilotAfter [1] 0 }
    s.carries ∧ s.blk.pilotOn 1 = true ∧ bit (s.blk.peek (ln 1 0x040)) 55 = false
    ∧ pilotPasses false (turned idleAfterOnes) (s.blk.lane 1).pilotRx = false
    ∧ pilotPasses true (turned idleAfterOnes) (s.blk.lane 1).pilotRx = true
    ∧ (s.blk.pilotTake 1 (turned idleAfterOnes)).1.pilotLock 1 = true := by and_intros <;> decide +kernel

theorem test_hyp_pilotMessages : (port {}).blk.pilotOn 1 = false ∧ ((trains 1 3).blk.pilotTake 1 []).2 = none
    ∧ ((trains 1 3).blk.pilotTake 1 (bl { mkPilot 0 0 [] with ctl := 5 })).2 = some { mkPilot 0 0 [] with ctl := 5 }
    ∧ pmGood { mkPilot 0 0 [] with ctl := 5 } = false
    ∧ (∀ x ∈ [(0, 0, []), (3, 1, []), (3, 5, []), (5, 0, [0x1F]), (4, 3 + 16, [0, 0]), (4, 2 + 16, [0, 0]), (4, 1 + 16, [0, 0]), (0xB, 0, [])],
      let m := mkPilot x.1 x.2.1 x.2.2
      hears (trains 1 3) m ∧ hears (trains 2 3) m ∧ hears (trains 5 3) m ∧ pmType m = x.1 ∧ fld (pmImm m) 3 0 = x.2.1 % 16)
    ∧ (∀ st ∈ [1, 2, 5], (trains st 3).blk.link 1 = st)
    ∧ (trains 1 3).blk.lstep 1 = 3 ∧ ((trains 1 3).blk.lane 1).done = false ∧ (trains 1 3).blk.trainable 1 = true
    ∧ (trains 1 3).blk.boot.restarting = false ∧ bit (pmImm (mkPilot 4 (3 + 16) [0, 0])) 4 = true := by and_intros <;> decide +kernel

/-- The peer is at step `k`, finished or not; both ends allow every rate and mode. -/
def peerAt (k : Nat) (d : Bool) (l : LaneSt) : LaneSt := { l with peerStep := k, peerDone := d, caps := some 31 }
/-- A state of step `k` of training. -/
abbrev inStep (k : Nat) (f : LaneSt → LaneSt) : Prop := let s := trains 1 k f
  s.carries ∧ s.blk.link 1 = 1 ∧ s.blk.lstep 1 = k ∧ s.blk.lanes[1]?.isSome = true
def rateOf (f : LaneSt → LaneSt) (gone : Nat) : Option Nat × Nat := let b := (trains 1 1 f (fun b => b.setRf (ln 1 0x048) 63 61 7)).blk
  chooseRate (b.rf (ln 1 0x048) 63 61 &&& b.fusedRates) (b.ownModes 1) gone ((b.lane 1).caps.getD 0)

theorem test_hyp_trainingSteps : (∀ k ∈ [1, 2, 3, 4, 5, 6, 7], inStep k (peerAt (k - 1) true) ∧ inStep k (peerAt k true)
      ∧ inStep k fun l => { peerAt k true l with done := true })
    ∧ ((trains 1 1 (peerAt 1 true)).blk.lane 1).done = false ∧ ((trains 1 1 (peerAt 1 true)).blk.lane 1).caps ≠ none
    ∧ ((trains 1 1).blk.lane 1).caps = none ∧ (trains 1 1).blk.pilotLock 1 = true ∧ ((trains 1 1).blk.lane 1).powered = true
    ∧ (rateOf (peerAt 1 true) 0).1.isSome = true ∧ (rateOf (peerAt 1 true) 1).1.isSome = true ∧ (rateOf (peerAt 1 true) 7).1 = none := by
  and_intros <;> decide +kernel

/-- The management core restarts meanwhile. -/
theorem test_hyp_trainingSteps_restart : let s := trains 1 3 id fun b => { b with boot := { b.boot with restarting := true } }
    s.carries ∧ s.blk.boot.restarting = true ∧ (trains 1 3).blk.boot.restarting = false := by decide +kernel

/-- ORDER hears the sixteen identities straight, reversed, in another order, or not all. -/
def idsOf (ks : List Nat) : Air := ks.map fun k => toLevels 32 (identity k 4)
abbrev orderOf (ids : Air) : List Nat := ((List.range 16).filterMap fun k => readIdentity (ids.getD k [])).map (fun x => x.1)
theorem test_hyp_trainingSteps_order : orderOf (idsOf (List.range 16)) = List.range 16
    ∧ orderOf (idsOf ((List.range 16).map fun k => 15 - k)) = (List.range 16).map (fun k => 15 - k)
    ∧ (orderOf (idsOf (1 :: 0 :: (List.range 14).map (· + 2)))).length = 16
    ∧ orderOf (idsOf (1 :: 0 :: (List.range 14).map (· + 2))) ≠ List.range 16
    ∧ orderOf (idsOf (1 :: 0 :: (List.range 14).map (· + 2))) ≠ (List.range 16).map (fun k => 15 - k)
    ∧ (orderOf (idsOf [0])).length ≠ 16 := by and_intros <;> decide +kernel

/-- ADAPT: measured lanes with a figure of merit, a starch record or an ended program; a sweep whose request has left. -/
def fomed (x : Nat) (l : LaneSt) : LaneSt := { peerAt 4 true l with lanes := l.lanes.map fun y => { y with measured := true, fom := x } }
theorem test_hyp_trainingSteps_adapt : (∀ x ∈ [(7900, true), (0, false)],
      let s := trains 1 5 (fomed x.1)
      (((s.blk.lane 1).lanes.all fun y => y.measured && decide (s.blk.fomMin 1 (s.blk.lane 1).mode + s.blk.rf (ln 1 0x050) 31 16 ≤ y.fom)) = x.2
        ∧ ((s.blk.lane 1).lanes.all fun y => y.measured && decide (s.blk.fomMin 1 (s.blk.lane 1).mode ≤ y.fom)) = x.2)
      ∧ inStep 5 (fun l => { fomed x.1 l with starch := true }) ∧ inStep 5 (fun l => { fomed x.1 l with adapt := { phase := .ended } }))
    ∧ inStep 5 (fun l => { fomed 0 l with adapt := { phase := .sweep 2 } }) ∧ inStep 5 (fun l => { fomed 0 l with adapt := { phase := .sweep 2, due := true } }) := by
  and_intros <;> decide +kernel

/-- ALIGN: every lane has found its marker, or not; FEC_LOCK: four markers and clean words, or not; a marker of lane 0. -/
theorem test_hyp_trainingSteps_lock : inStep 6 (fun l => { peerAt 5 true l with lanes := l.lanes.map fun y => { y with marker := true } })
    ∧ (∃ y ∈ ((trains 1 6).blk.lane 1).lanes, y.marker = false)
    ∧ inStep 7 (fun l => { peerAt 6 true l with rx := { Deframer.fresh 1 with groups := 4, clean := 2 ^ 20 } })
    ∧ ((trains 1 7).blk.lane 1).rx.groups < 4
    ∧ markerHere 1 0 0 (toLevels 33 (withParity (markerWord 0 0 0))) = true ∧ markerHere 1 0 0 [] = false := by and_intros <;> decide +kernel

/-- Port 1 in SEAM_CHECK. -/
abbrev seams (f : LaneSt → LaneSt) (g : Block → Block := id) : Prop := let s := trains 2 0 f g
  s.carries ∧ s.blk.link 1 = 2 ∧ s.blk.lanes[1]?.isSome = true
def seamed (f : LaneSt → LaneSt) : State := trains 2 0 f fun b => (b.setRf (ln 1 0x070) 63 63 1).setRf (ln 1 0x088) 59 52 2
/-- A SEAM of the right neighbour, with the versions `v`. -/
def seamOf (v : Nat) : PilotMsg := let b := (trains 2 0).blk
  mkPilot 6 0 [word (put (b.expected 1).1 15 49 + put (b.expected 1).2 3 46), word v, b.peek wSeal, 0]

theorem test_hyp_seamCheck : seams id ∧ ((trains 2 0).blk.lane 1).seen = none ∧ ((trains 2 0).blk.lane 1).result = none
    ∧ ((trains 2 0).blk.lane 1).powered = true ∧ ((trains 2 0).blk.lane 1).t1 = none ∧ ((trains 2 0).blk.lane 1).flights.length < 255
    ∧ seams (fun l => { l with seen := some 0 }) ∧ seams (fun l => { l with t1 := some (3, 10) }) ∧ 10 + 3200000 ≤ 4000000
    ∧ (let s := seamed fun l => { l with t1 := some (3, 10), flights := List.replicate 255 5 }
       hears s (mkPilot 9 3 [500, 520]) ∧ (s.blk.lane 1).t1 = some (3, 10) ∧ 255 ≤ (s.blk.lane 1).flights.length)
    ∧ (∀ m ∈ [mkPilot 8 3 [], mkPilot 9 3 [500, 520], mkPilot 6 3 [500, 520, 0, 0], seamOf 3, seamOf 0, seamOf 1, mkPilot 7 3 [], mkPilot 7 32 []],
      hears (trains 2 0) m)
    ∧ fld (pmImm (mkPilot 9 3 [500, 520])) 7 0 = 3 ∧ pmType (seamOf 3) = 6 ∧ pmType (mkPilot 8 3 []) = 8
    ∧ fld ((mkPilot 6 3 [500, 520, 0, 0]).data.getD 2 0) 63 49 ≠ fld ((trains 2 0).blk.peek wSeal) 63 49 := by and_intros <;> decide +kernel

/-- The peer's SEAM agrees in all; 256 delays have been measured, and the link is short or long. -/
theorem test_hyp_seamCheck_good : (let b := (trains 2 0).blk
      let d := fun (i : Nat) => (seamOf 3).data.getD i 0
      fld (d 2) 63 49 = fld (b.peek wSeal) 63 49 ∧ fld (d 0) 63 49 = (b.expected 1).1 ∧ fld (d 0) 48 46 = (b.expected 1).2
      ∧ bitLen 64 (3 &&& (d 1).toNat) = 2)
    ∧ (∀ t ∈ [1000, 1600001], let s := trains 2 0 (fun l => { l with flights := List.replicate 256 5 }) fun b => b.setRf (ln 1 0x070) 31 0 t
       hears s (seamOf 3) ∧ (s.blk.lane 1).seen = none ∧ 256 ≤ (s.blk.lane 1).flights.length
       ∧ decide (s.blk.rf (ln 1 0x070) 31 0 ≤ 1600000) = (t == 1000)) := by and_intros <;> decide +kernel

theorem test_hyp_seamCheck_result : (let s := seamed fun l => { l with result := some 0 }
      hears s (mkPilot 7 3 []) ∧ pmType (mkPilot 7 3 []) = 7 ∧ (s.blk.lane 1).result = some 0 ∧ fld (pmImm (mkPilot 7 3 [])) 3 0 ≠ 0)
    ∧ (∀ n ∈ [5, 256], let s := seamed fun l => { l with mode := 2, result := some 0, flights := List.replicate n 5 }
       hears s (mkPilot 7 32 []) ∧ fld (pmImm (mkPilot 7 32 [])) 3 0 = 0 ∧ fld (pmImm (mkPilot 7 32 [])) 11 4 = s.blk.rf (ln 1 0x088) 59 52
       ∧ s.blk.fwd.pkts = [] ∧ decide (256 ≤ (s.blk.lane 1).flights.length) = (n == 256)) := by and_intros <;> decide +kernel

/-- Port 1 brings time; the chip is unlocked with a TIME taken, or locked, or in holdover. -/
def timed (l h : Nat) (f : Block → Block := id) : State := trains 5 0 (fun l => { l with agreed := true }) fun b =>
  let b := ((((b.setRf wTimeStatus 60 58 1).setRf (ln 1 0x070) 63 63 1).setRf (ln 1 0x088) 63 60 0).setRf wTimeStatus 63 63 l).setRf wTimeStatus 62 62 h
  f { b with time := { b.time with timeSet := true } }
/-- Port 2 qualifies as a parent too. -/
def other (b : Block) : Block := { (b.setRf (ln 2 0x070) 63 63 1).setRf (ln 2 0x040) 56 56 1 with
  time := { b.time with hops := b.time.hops.set 2 4 }, lanes := b.lanes.modify 2 fun l => { l with agreed := true } }

theorem test_hyp_fabricTime : (∀ l ∈ [0, 1], (timed l 0).carries ∧ (timed l 0).blk.isMaster = false ∧ (timed l 0).blk.timeOk 1 = true
      ∧ (timed l 0).blk.rf wTimeStatus 60 58 = 1 ∧ (timed l 0).blk.locked = (l == 1) ∧ (timed l 0).blk.time.timeSet = true
      ∧ 1 < (timed l 0).blk.time.hops.length ∧ bit ((timed l 0).blk.peek (ln 1 0x070)) 63 = true ∧ (timed l 0).blk.rf wTimeStatus 62 62 = 0
      ∧ hears (timed l 0) (mkPilot 1 3 [77]) ∧ hears (timed l 0) (mkPilot 2 3 [77]))
    ∧ pmType (mkPilot 1 3 [77]) = 1 ∧ pmType (mkPilot 2 3 [77]) = 2 ∧ fld (pmImm (mkPilot 2 3 [77])) 7 0 < 255
    ∧ (let s := timed 0 0 fun b => { b with time := { b.time with timeSet := false } }; hears s (mkPilot 1 3 [77]) ∧ s.blk.time.timeSet = false)
    ∧ (let s := trains 5 0; hears s (mkPilot 1 3 [77]) ∧ s.blk.isMaster = false ∧ s.blk.timeOk 1 = false)
    ∧ (let s := timed 1 1; hears s (mkPilot 2 3 [77]) ∧ s.blk.timeOk 1 = true ∧ s.blk.locked = true ∧ s.blk.rf wTimeStatus 62 62 = 1
       ∧ { s.blk with time := { s.blk.time with hops := s.blk.time.hops.set 1 3 } }.bestParent = some 1) := by and_intros <;> decide +kernel

/-- Before the lock: the parent stays the best, or port 2 is better. -/
theorem test_hyp_fabricTime_choice :
    (let b := (timed 0 0).blk; b.locked = false ∧ { b with time := { b.time with hops := b.time.hops.set 1 3 } }.bestParent = some 1)
    ∧ (let s := timed 0 0 other
       hears s (mkPilot 2 200 [77]) ∧ s.blk.isMaster = false ∧ s.blk.timeOk 1 = true ∧ s.blk.locked = false ∧ s.blk.rf wTimeStatus 60 58 = 1
       ∧ { s.blk with time := { s.blk.time with hops := s.blk.time.hops.set 1 (fld (pmImm (mkPilot 2 200 [77])) 7 0) } }.bestParent = some 2) := by
  and_intros <;> decide +kernel

theorem test_hyp_fabricTime_loss : (∀ y ∈ [0, 1], let s := timed 1 0 fun b => b.setRf wTimeStatus 49 49 y
      s.carries ∧ s.blk.isMaster = false ∧ s.blk.locked = true ∧ s.blk.rf wTimeStatus 60 58 < 6 ∧ s.blk.rf wTimeStatus 49 49 = y
      ∧ { s.blk with time := { s.blk.time with hops := s.blk.time.hops.set 1 255 } }.bestParent = none)
    ∧ (let s := timed 1 0 other
       s.carries ∧ s.blk.isMaster = false ∧ s.blk.locked = true ∧ s.blk.rf wTimeStatus 60 58 < 6
       ∧ { s.blk with time := { s.blk.time with hops := s.blk.time.hops.set 1 255 } }.bestParent = some 2)
    ∧ (let s := up fun b => let b := sealed b; { b with time := { b.time with waiting := true }, boot := { b.boot with reached := 63 } }
       s.carries ∧ 6 ≤ s.blk.bootStage ∧ (∀ p < 6, s.blk.settled p = true) ∧ s.blk.isMaster = false ∧ s.blk.time.waiting = true ∧ s.blk.locked = false ∧ s.blk.rf wSealLeft 63 63 = 1
       ∧ s.blk.rf wSeal 48 34 = s.blk.chipId ∧ s.blk.rf wTimeStatus 49 49 = 0)
    ∧ up.blk.time.waiting = false := by and_intros <;> decide +kernel

/-! ### Contexts, resets and the watchdog -/

/-- The reset's part changed by `f`, then `g`, at the edge of tick 500. -/
def rsting (f : RstSt → RstSt) (g : Block → Block := id) : State :=
  up fun b => let b := edgy b; g { b with rst := f b.rst, time := { b.time with tick := 500 } }

theorem test_hyp_contextRegisters : up.carries ∧ up.blk.rst.down = false ∧ up.blk.rf (cx 0x050) 63 63 = 1
    ∧ (base id).carries ∧ (base id).blk.rst.down = true
    ∧ (let s := up fun b => b.setRf (cx 0x050) 63 63 0; s.carries ∧ s.blk.rst.down = false ∧ s.blk.rf (cx 0x050) 63 63 = 0)
    ∧ bit (word (2 ^ 61)) 61 = true ∧ bit (1 : Word) 61 = false := by decide +kernel

theorem test_hyp_rinseRuns :
    (let s := rsting fun r => { r with rinseDue := some 7 }
     s.carries ∧ s.blk.rst.rinseDue = some 7 ∧ s.blk.rst.down = false ∧ s.blk.rst.draining = false ∧ s.blk.time.tick ≠ s.blk.rst.rinseStart
     ∧ s.blk.onEdge = true ∧ s.blk.rst.rinse = none)
    ∧ up.carries ∧ up.blk.rst.rinseDue = none ∧ up.blk.onEdge = false
    ∧ (let s := rsting fun r => { r with rinseDue := some 7, down := true, draining := true, rinseStart := 500 }
       s.carries ∧ s.blk.rst.down = true ∧ s.blk.rst.draining = true ∧ s.blk.time.tick = s.blk.rst.rinseStart)
    ∧ (let s := rsting fun r => { r with rinse := some 7, rinsing := true }
       s.carries ∧ s.blk.rst.rinse = some 7 ∧ s.blk.rst.rinsing = true ∧ s.blk.rinseReady = true)
    ∧ (let s := rsting fun r => { r with rinse := some 7, rinseStart := 499 }
       s.carries ∧ s.blk.rst.rinse = some 7 ∧ s.blk.rinseReady = false ∧ s.blk.rst.rinsing = false)
    ∧ (∀ n ∈ [0, 1], let s := rsting (fun r => { r with rinse := some 7, rinsing := true, rinsePassed := n })
       s.carries ∧ s.blk.rst.rinse = some 7 ∧ s.blk.rst.rinsing = true ∧ s.blk.rst.rinsePassed = n ∧ s.blk.rst.level < 3
       ∧ 2 * max 1 (s.blk.rf (rs 0x058) 63 48) < s.blk.time.tick - s.blk.rst.rinseStart)
    ∧ (∀ n ∈ [0, 1], let s := rsting (fun r => { r with rinse := some 7, rinsing := true, rinsePassed := n, rinseStart := 499 })
       s.carries ∧ s.blk.rst.rinsePassed = n ∧ s.blk.time.tick - s.blk.rst.rinseStart ≤ max 1 (s.blk.rf (rs 0x058) 63 48))
    ∧ (let s := rsting (fun r => { r with rinse := some 7, rinsing := true, rinsePassed := 1, level := 3 })
       s.carries ∧ s.blk.rst.rinsePassed = 1 ∧ 3 ≤ s.blk.rst.level) := by decide +kernel

/-- Engine 4 holds a finished unit. -/
def hung : State := up fun b =>
  let h : Held := { unit := { kind := .reduce 1, w := [], m := [], stream := 0 }, landed := [], sent := [], overs := 0, nan := 0, nonfinite := 0, cycles := 1 }
  { b with mangle := { b.mangle with engines := b.mangle.engines.set 4 { held := some h } } }

theorem test_hyp_engineResets_hang :
    (let long := fun (s : State) (now since : Nat) =>
       decide (1024 * s.blk.rf (rs 0x050) 15 0 < (max s.blk.time.now now - since) * s.blk.rf (regAt 0x01 0x840) 51 40 / 16000)
     long hung (10 ^ 12) (hung.blk.engine 4).since = true ∧ long hung 0 (hung.blk.engine 4).since = false
     ∧ (let s := folding 0
        s.blk.rf (rs 0x050) 62 62 = 1 ∧ s.blk.rst.level < 2 ∧ s.blk.foldReady 1 = true
          ∧ long s (10 ^ 12) (max s.blk.fold.lastAt (s.blk.prog 1).since) = true)) := by decide +kernel

theorem test_hyp_engineResets : up.carries ∧ up.blk.rst.level < 2
    ∧ hung.carries ∧ hung.blk.rst.level < 2 ∧ (hung.blk.engine 4).held ≠ none ∧ hung.blk.rf (rs 0x050) 62 62 = 1 ∧ (hung.blk.engine 5).held = none
    ∧ (let s := up fun b => b.setRf (rs 0x050) 62 62 0; s.carries ∧ s.blk.rf (rs 0x050) 62 62 ≠ 1)
    ∧ (let s := rsting fun r => { r with level := 2, engines := [4] }
       s.carries ∧ s.blk.rst.level = 2 ∧ 4 ∈ s.blk.rst.engines ∧ s.blk.rst.engines ≠ [] ∧ (∀ x ∈ s.blk.rst.engines, x = 4)
       ∧ 5 ∉ s.blk.rst.engines ∧ bitN s.blk.boot.sramFailed 4 = false)
    ∧ (let s := rsting fun r => { r with level := 2, engines := [12] }; s.carries ∧ 12 ∈ s.blk.rst.engines)
    ∧ up.blk.rst.engines = [] := by decide +kernel

/-- A transaction that waits for its answer. -/
def livetxn : Txn := { kind := .wr, unc := false, ctx := 0, addr := 0, beats := 1, job := 3, part := 0 }

theorem test_hyp_computeResets : up.carries ∧ up.blk.rst.level < 3 ∧ up.blk.rst.down = false ∧ up.blk.phase ≠ 4
    ∧ (base id).carries ∧ (base id).blk.rst.down = true
    ∧ (let s := rsting fun r => { r with level := 3, draining := true }
       s.carries ∧ s.blk.rst.level = 3 ∧ 3 ≤ s.blk.rst.level ∧ s.blk.rst.draining = true ∧ s.blk.host.out = [] ∧ s.blk.host.waiting = []
       ∧ ∀ q ∈ s.blk.ports, ∀ f ∈ q.flits, f.spilled = false)
    ∧ (let s := rsting (fun r => { r with level := 3, draining := true }) fun b => { b with host := { b.host with out := [livetxn] } }
       s.carries ∧ ∃ t ∈ s.blk.host.out, t.dead = false)
    ∧ (let s := rsting (fun r => { r with level := 3, draining := true }) fun b => { b.setPhase 2 with host := { b.host with out := [livetxn] } }
       s.carries ∧ s.blk.phase = 2 ∧ s.blk.rst.draining = true ∧ ∀ j ∈ s.blk.host.jobs, s.blk.isDump j.id = false)
    ∧ (let s := up fun b => b.setPhase 4; s.carries ∧ s.blk.phase = 4 ∧ bit (0 : Word) 63 = false) := by decide +kernel

theorem test_hyp_blockResets : (stage 0xF).carries ∧ (stage 0xF).blk.bootStage = 0xF ∧ (stage 0xF).blk.rst.level < 4
    ∧ up.blk.bootStage ≠ 0xF ∧ up.carries ∧ up.blk.rst.level < 4 ∧ up.blk.rst.level ≠ 3
    ∧ (let s := rsting fun r => { r with level := 3, draining := true }; s.carries ∧ s.blk.rst.level = 3 ∧ s.blk.rst.draining = true)
    ∧ (let s := rsting fun r => { r with level := 4 }; s.carries ∧ s.blk.rst.level = 4 ∧ 4 ≤ s.blk.rst.level) := by decide +kernel

theorem test_hyp_watchdog : up.carries ∧ up.blk.boot.restarting = false ∧ bit (1 : Word) 0 = true ∧ bit (2 : Word) 0 = false
    ∧ (∀ n ∈ [0, 3], let s := up fun b => { b with boot := { b.boot with bites := n, coreUp := true, startAt := 5 * 10 ^ 11 } }
       s.carries ∧ s.blk.boot.coreUp = true ∧ s.blk.boot.restarting = false
       ∧ s.blk.boot.kickAt + 16000000 * s.blk.rf (rs 0x088) 31 16 ≤ max s.blk.time.now (6 * 10 ^ 11)
       ∧ (max s.blk.time.now (6 * 10 ^ 11) : Int) - s.blk.boot.startAt < 160000000000 ∧ decide (n + 1 < 4) = (n == 0))
    ∧ up.blk.boot.coreUp = false
    ∧ (∀ st ∈ [0, 1], let s := port { st } fun b => { sealed b with boot := { b.boot with restarting := true, trainDue := [1] } }
       s.carries ∧ s.blk.boot.restarting = true ∧ 1 < s.blk.ports.length ∧ s.blk.trainable 1 = true ∧ s.blk.link 1 = st
       ∧ 1 ∈ s.blk.boot.trainDue) := by decide +kernel

/-! ### Firmware, the seal, power, clock and observation -/

/-- Start-up's part changed by `f`, then `g`, at the edge of tick 50. -/
def booted (f : BootSt → BootSt) (g : Block → Block := id) : State := up fun b =>
  let b := edgy b; g { b with boot := f b.boot, time := { b.time with tick := 50 } }
/-- A firmware packet of session 9, with its finding. -/
def chunk (op : Nat) (bad : Bool := false) : Packet :=
  { hdr := BitVec.ofNat 128 (put op 6 122 + put 9 16 46 + put 3 10 36), data := [5, 6], bad }

theorem test_hyp_firmwareLoads : (booted id).carries ∧ (booted id).blk.boot.loading = false ∧ (booted id).blk.boot.staged = none
    ∧ up.blk.onEdge = false
    ∧ (let s := booted fun x => { x with loading := true, imageRead := true, image := image }
       s.carries ∧ s.blk.boot.loading = true ∧ s.blk.boot.imageRead = true
       ∧ s.blk.imageCode 1 s.blk.boot.image s.blk.boot.imageBad true true = 0
       ∧ s.blk.imageCode 1 s.blk.boot.image s.blk.boot.imageBad false true ≠ 0)
    ∧ (let s := booted fun x => { x with loading := true }; s.carries ∧ s.blk.boot.loading = true ∧ s.blk.boot.imageRead = false)
    ∧ (let s := booted (fun x => { x with staged := some (7, image) }) fun b => b.poke (regAt 0x01 0x810) (word (2 ^ 63 + 5))
       s.carries ∧ s.blk.boot.staged ≠ none ∧ s.blk.time.tick < fld (70 : Word) 47 0 ∧ fld (30 : Word) 47 0 ≤ s.blk.time.tick
       ∧ s.blk.onEdge = true ∧ s.blk.boot.staged = some (7, image) ∧ s.blk.rf (regAt 0x01 0x810) 63 63 = 1
       ∧ s.blk.rf (regAt 0x01 0x810) 47 0 ≤ s.blk.time.tick) := by decide +kernel

theorem test_hyp_firmwareBroadcast :
    (let s := booted fun x => { x with staged := some (7, image) }; s.carries ∧ s.blk.boot.staged ≠ none ∧ s.blk.boot.bcast = none)
    ∧ (booted id).carries ∧ (booted id).blk.boot.staged = none
    ∧ (∀ r ∈ [0, 1], let s := booted fun x => { x with staged := some (7, image), bcast := some (r, 0) }
       s.carries ∧ s.blk.boot.bcast = some (r, 0) ∧ s.blk.boot.staged = some (7, image) ∧ s.blk.boot.bcast ≠ none
       ∧ decide (r < max 1 (s.blk.rf (regAt 0x01 0x820) 45 44)) = (r == 0)) := by decide +kernel

theorem test_hyp_firmwareBroadcast_arrivals :
    (∀ op ∈ [0x31, 0x32], ∀ bad ∈ [false, true],
       hOp (chunk op bad).hdr = op ∧ (booted id).blk.epochOk (chunk op bad) ∧ (chunk op bad).bad = bad)
    ∧ (∀ c ∈ [[(3, [])], [(4, [])]], let s := booted fun x => { x with session := some 9, chunks := c }
       s.carries ∧ s.blk.boot.session = some (fld (chunk 0x31).hdr 61 46)
       ∧ (s.blk.boot.chunks.any fun x => x.1 == fld (chunk 0x31).hdr 45 36) = (c == [(3, [])]))
    ∧ (booted id).blk.boot.session ≠ some (fld (chunk 0x31).hdr 61 46)
    ∧ (let s := booted fun x => { x with recvDue := some (50, 1, 516), chunks := [(0, image)] }
       s.carries ∧ s.blk.onEdge = true ∧ s.blk.boot.recvDue = some (50, 1, 516) ∧ 50 ≤ s.blk.time.tick ∧ s.blk.boot.staged = none
       ∧ s.blk.assembly 1 516 = some image ∧ s.blk.imageCode 1 image false true true = 0 ∧ s.blk.imageCode 1 image false true false ≠ 0)
    ∧ (let s := booted fun x => { x with recvDue := some (50, 2, 516), chunks := [(0, image)] }
       s.carries ∧ s.blk.boot.recvDue = some (50, 2, 516) ∧ s.blk.assembly 2 516 = none) := by decide +kernel

theorem test_hyp_sealAndFeatures :
    (let s := up fun b => b.setRf wStartup 63 60 4
     s.carries ∧ s.blk.rf wSealLeft 63 63 = 0 ∧ s.blk.sealRefused (word (3 * 2 ^ 59) &&& word sealMask) = false
     ∧ s.blk.rf wSealLeft 2 0 ≠ 0 ∧ s.blk.bootStage = 4 ∧ s.blk.sealRefused (word (3 * 2 ^ 59 + 9) &&& word sealMask) = true)
    ∧ (let s := up sealed; s.carries ∧ s.blk.rf wSealLeft 63 63 = 1 ∧ s.blk.peek wSeal &&& word sealMask = s.blk.peek wSeal)
    ∧ (let s := up fun b => b.setRf wSealLeft 2 0 0
       s.carries ∧ s.blk.rf wSealLeft 63 63 = 0 ∧ s.blk.sealRefused (word (3 * 2 ^ 59) &&& word sealMask) = false ∧ s.blk.rf wSealLeft 2 0 = 0)
    ∧ subsetBits (3 : Word).toNat (up.blk.peek wFeatOffered).toNat = true ∧ bit (3 : Word) 0 = true ∧ bit (2 : Word) 0 = false
    ∧ subsetBits (BitVec.allOnes 64 : Word).toNat (up.blk.peek wFeatOffered).toNat = false
    ∧ (∀ k < 4, up.blk.peek (fo (0x048 + 8 * k)) = 0)
    ∧ (let s := up fun b => b.poke (fo 0x048) 1; s.carries ∧ ∃ k, k < 4 ∧ s.blk.peek (fo (0x048 + 8 * k)) ≠ 0)
    ∧ fld (1 : Word) 3 0 ≤ 2 ∧ 2 < fld (3 : Word) 3 0 ∧ up.carries ∧ up.blk.boot.fuseVariant = none
    ∧ (let s := up fun b => { b with boot := { b.boot with fuseVariant := some 0 } }; s.carries ∧ s.blk.boot.fuseVariant = some 0) := by
  decide +kernel

theorem test_hyp_powerClockTime : up.carries ∧ up.blk.link 1 = 0 ∧ up.blk.rf (ln 1 0x098) 63 61 = 0
    ∧ bit (2 : Word) 1 = true ∧ bit (up.blk.peek (regAt 0x01 0x850)) 1 = false
    ∧ (let s := up fun b => b.setRf (ln 1 0x098) 63 61 1; s.carries ∧ s.blk.rf (ln 1 0x098) 63 61 ≠ 0 ∧ bit (s.blk.peek (regAt 0x01 0x850)) 1 = false)
    ∧ (let s := up fun b => { b.setRf (regAt 0x01 0x850) 5 0 2 with lanes := b.lanes.map fun l => { l with powering := true } }
       s.carries ∧ bit (s.blk.peek (regAt 0x01 0x850)) 1 = true ∧ bit (0 : Word) 1 = false ∧ s.blk.lanes[1]?.isSome = true
       ∧ (s.blk.lane 1).powering = true)
    ∧ (up.blk.lane 1).powering = false
    ∧ (∀ p < 6, bit (0 : Word) p = false) ∧ fld (word (2000 * 2 ^ 52)) 63 52 % 100 = 0 ∧ 1200 ≤ fld (word (2000 * 2 ^ 52)) 63 52
    ∧ up.blk.fusedMhz < fld (word (4000 * 2 ^ 52)) 63 52 ∧ fld (word (2050 * 2 ^ 52)) 63 52 % 100 ≠ 0 ∧ fld (word (1100 * 2 ^ 52)) 63 52 < 1200
    ∧ (let s := up fun b => b.setTs 61 61 1; s.carries ∧ s.blk.isMaster = true ∧ periodOk (fld (1024 : Word) 20 0) = true)
    ∧ up.blk.isMaster = false ∧ periodOk (fld (1 : Word) 20 0) = false ∧ bit (word (2 ^ 63)) 63 = true ∧ bit (0 : Word) 63 = false := by
  decide +kernel

/-- SNAPSHOT and crease enabled, at the edge of tick 50. -/
def observing (b : Block) : Block := let b := edgy (b.setRf (db 0x040) 63 63 1); { b with time := { b.time with tick := 50, edge := 800 } }

theorem test_hyp_observation : up.carries ∧ fld (5 : Word) 3 0 ≠ 0 ∧ fld (16 : Word) 3 0 = 0 ∧ up.blk.obs.clearDue = 0
    ∧ (let s := up fun b => observing { b with obs := { b.obs with clearDue := 1 } }
       s.carries ∧ s.blk.obs.clearDue ≠ 0 ∧ s.blk.time.tick ≠ s.blk.obs.clearTick ∧ s.blk.onEdge = true
       ∧ (∃ w ∈ [regAt 0x00 0x000, cn 0x800, tr 0x078], clearsWord 0xF w = true) ∧ clearsWord 1 (db 0x040) = false)
    ∧ (∀ n ∈ [0, 8], let s := up fun b => (b.poke (tr 0x048) (word (2 ^ 63 + 2 ^ 60))).setRf (tr 0x040) 3 0 n
       s.carries ∧ bit (s.blk.peek (tr 0x048)) 63 = true ∧ bit (s.blk.peek (tr 0x048)) 60 = true ∧ s.blk.obs.trLost = 0
       ∧ s.blk.traceRoom = (n == 8))
    ∧ bit (up.blk.peek (tr 0x048)) 60 = false
    ∧ (let s := up fun b => observing { b with obs := { b.obs with snapDue := some 1 } }
       s.carries ∧ s.blk.rf (db 0x048) 63 63 = 1 ∧ s.blk.rst.down = false ∧ s.blk.rf (db 0x040) 63 63 = 1 ∧ s.blk.obs.snapDue = some 1
       ∧ s.blk.time.tick ≠ s.blk.obs.snapTick ∧ s.blk.onEdge = true)
    ∧ up.blk.rf (db 0x040) 63 63 = 0 ∧ up.blk.obs.snapDue = none ∧ up.blk.onEdge = false := by decide +kernel

theorem test_hyp_crease : (up observing).carries ∧ (up observing).blk.creased = false ∧ (up observing).blk.rf (db 0x050) 63 63 = 0
    ∧ (up observing).blk.time.tick + 2 ≤ fld (52 : Word) 47 0 ∧ fld (51 : Word) 47 0 < (up observing).blk.time.tick + 2
    ∧ fld (51 : Word) 47 0 ≠ 0 ∧ fld (0 : Word) 47 0 = 0 ∧ (up observing).blk.rf (db 0x058) 63 63 = 0 ∧ up.blk.onEdge = false
    ∧ (let s := up fun b => (observing b).poke (db 0x050) (word (2 ^ 63 + 40))
       s.carries ∧ s.blk.creased = false ∧ s.blk.rf (db 0x050) 63 63 = 1 ∧ s.blk.rf (db 0x050) 47 0 ≤ s.blk.time.tick ∧ s.blk.onEdge = true)
    ∧ (let s := up fun b => ((observing b).poke (db 0x050) (word (2 ^ 62 + 40))).poke (db 0x058) (word (2 ^ 63 + 50))
       s.carries ∧ s.blk.creased = true ∧ s.blk.rf (db 0x058) 63 63 = 1 ∧ s.blk.rf (db 0x058) 47 0 ≤ s.blk.time.tick ∧ s.blk.onEdge = true) := by
  decide +kernel

theorem test_hyp_collector :
    (let s := up fun b => (b.setRf (tr 0x830) 63 63 1).setRf (tr 0x828) 3 0 8
     s.carries ∧ s.blk.rf (tr 0x830) 63 63 = 1 ∧ s.blk.ringFree (tr 0x828) (tr 0x830) = true)
    ∧ (let s := up fun b => b.setRf (tr 0x830) 63 63 1; s.carries ∧ s.blk.ringFree (tr 0x828) (tr 0x830) = false)
    ∧ up.carries ∧ up.blk.rf (tr 0x830) 63 63 = 0
    ∧ (∀ op ∈ [0x38, 0x39, 0x3A], hOp (chunk op).hdr = op ∧ up.blk.epochOk (chunk op) ∧ (chunk op).bad = false ∧ (chunk op true).bad = true) := by
  decide +kernel

end Sys2Proof.Tests
end

section
/-!
PROOF. The key root (R59): what a command leaves of a root that stands, and the statement over every step.
-/

namespace Sys2Proof.Machine

theorem Stays.rfl {b : Block} : Stays b b := .of_kept Kept.rfl

/-- An arriving packet changes what stands only by what takes it up. -/
theorem Block.arrive_stays (b : Block) (p : Packet) (mine : Bool) (go : Block → Block) (h : ∀ z, Stays z (go z)) :
    Stays b (b.arrive p mine go) := by
  unfold Block.arrive
  dsimp only
  refine Stays.ite .rfl (Stays.ite (.of_kept (by simp)) (Stays.ite (.of_kept (by simp)) (Stays.ite (.of_kept (by simp)) ?_)))
  exact (Stays.of_kept (by simp)).trans (h _)

/-- A command that acts out of cold reset keeps what its function on the block keeps. -/
theorem After.stays_of_run {c : Instr} {s : State} {f : Block → Block} (h : ∀ b, Stays b (f b)) (e : exec c s = s.run f := by rfl) :
    After c s (Stays s.blk) := ⟨_, e, Stays.ite .rfl (h _)⟩

/-- So does a command of the block's traffic. -/
theorem After.stays_of_carry {c : Instr} {s : State} {f : Block → Block} (h : ∀ b, Stays b (f b))
    (e : exec c s = s.carry f := by rfl) : After c s (Stays s.blk) := .stays_of_run (fun b => Stays.ite .rfl (h b)) e

/-- From any state, a command other than the two of cold reset keeps a variant code and a key root that stand. Seven commands can write
one of the two, and only where none stands; of every other one the `_kept_iff` lemma of its operation says that both stay as they are. -/
theorem exec_stays (c : Instr) (s : State) (fall : c ≠ .coldRstAssert)
    (rise : ∀ csel x y prov, c ≠ .coldRstRelease csel x y prov) : After c s (Stays s.blk) := by
  cases c
  case coldRstAssert => exact absurd rfl fall
  case coldRstRelease csel x y prov => exact absurd rfl (rise csel x y prov)
  case mildomRegWrite reg v crc => exact .stays_of_run fun b => b.mildomWrite_stays reg v.what v.d crc
  case regAccess write reg v => exact .stays_of_run fun b => b.jtagReg_stays write reg v.what v.d
  case fuseWrite code => exact .stays_of_run fun b => b.jtagFuse_stays code
  case registerWrite priv reg v wchk => exact .stays_of_run fun b => b.portWrite_stays priv reg v.what v.d wchk
  case keyRootWrite rp v => exact .stays_of_run fun b => b.portGate_stays false rp _ v _ fun z => z.keyRootWrite_stays v
  case variantFusedWrite rp v => exact .stays_of_run fun b => b.portGate_stays false rp _ v _ fun z => z.fuseWrite_stays _ _
  case regWritePacket p => exact .stays_of_carry fun b => b.arrive_stays p.what _ _ fun z => z.regWritePacket_stays p.what p.d
  all_goals exact ⟨_, rfl, .of_kept (by simp)⟩

/-- COLD_RST_N that rises without a fall changes nothing (R511). -/
theorem Block.coldRelease_live {b : Block} (h : b.boot.coldHeld = false) (csel : Bool) (x y prov : Nat) :
    b.coldRelease csel x y prov = b := by
  unfold Block.coldRelease
  simp [h]

/-- Out of cold reset, a command other than COLD_RST_N's fall keeps a key root that stands. -/
theorem exec_keeps_keyRoot {c : Instr} {s : State} {r : Word} (live : s.live) (h : s.blk.keyRoot = some r) (fall : c ≠ .coldRstAssert) :
    After c s fun b => b.keyRoot = some r := by
  by_cases rise : ∃ csel x y prov, c = .coldRstRelease csel x y prov
  · obtain ⟨csel, x, y, prov, rfl⟩ := rise
    exact .of_act (f := fun b => b.coldRelease csel x y prov) (by simpa [Block.coldRelease_live live] using h)
  · obtain ⟨b, e, k⟩ := exec_stays c s fall fun csel x y prov he => rise ⟨csel, x, y, prov, he⟩
    exact ⟨b, e, k.2 r h⟩

/-- So does a step, whatever stands at the front of the queue but that fall. -/
theorem step_keeps_keyRoot {s t : State} {r : Word} (live : s.live) (h : s.blk.keyRoot = some r)
    (fall : ∀ c rest, s.pending = c :: rest → c ≠ .coldRstAssert) (e : step s = .next t) : t.blk.keyRoot = some r := by
  unfold step at e
  split at e
  · cases e
    exact h
  · rename_i c rest q
    obtain ⟨b, eb, hb⟩ := exec_keeps_keyRoot (s := { s with pending := rest }) live h (fall c rest q)
    cases eb.symm.trans e
    exact hb

/-- A root written where none stands is set (R59). -/
theorem Block.keyRootWrite_first {b : Block} (h : b.keyRoot = none) (v : Word) : (b.keyRootWrite v).keyRoot = some v := by
  unfold Block.keyRootWrite
  simp [h]

/-- RP_WCHK has eight bits (R281). -/
theorem rpCheck_lt (addr : Nat) (v : Word) : rpCheck addr v < 256 := by
  simp only [rpCheck, List.range_eq_range', List.range'_succ, List.range'_zero, List.map_cons, List.map_nil, List.sum_cons, List.sum_nil]
  omega

/-- A privileged first write through the register port, its parity right and the compute domain up, sets the root (R59, R281). -/
theorem After.keyRootWrite_first {s : State} (live : s.live) (unset : s.blk.keyRoot = none) (up : s.blk.rst.down = false) (v : Word) :
    After (.keyRootWrite (rpOk true (sg 0x078) v) v) s fun b => b.keyRoot = some v := by
  have parity : (rpOk true (sg 0x078) v).wchk % 256 = rpCheck (sg 0x078 % 65536) v := Nat.mod_eq_of_lt (rpCheck_lt _ v)
  have reg : isReg (sg 0x078) = true := by decide
  refine .of_run (f := fun b => b.portGate false (rpOk true (sg 0x078) v) (sg 0x078) v fun z => z.keyRootWrite v) live ?_
  rw [Block.portGate_open parity reg (.inl up) (.inr rfl)]
  exact Block.keyRootWrite_first unset v

/-- SEGMAP.KEY_ROOT reads as zero, the compute domain up or down (R59). -/
theorem Block.regRead_keyRoot (b : Block) : b.regRead (sg 0x078) = 0 := by
  have page : pageKind (sg 0x078 / 512) = some 0x58 := by decide
  have worked : b.readWorked 0x58 (sg 0x078 / 512) (sg 0x078 % 512 * 8) = some 0 := rfl
  unfold Block.regRead
  simp [page, worked]

end Sys2Proof.Machine

open Sys2Proof Sys2Proof.Machine

/-- Settles O5: the port takes up a first write, every command but the fall of COLD_RST_N keeps the root, a read is worked out as zero. -/
theorem keyRootKept : Obligations.KeyRootKept := fun s live =>
  ⟨fun v unset up => .keyRootWrite_first live unset up v,
    fun _ _ root fall ran => step_keeps_keyRoot live root fall ran,
    s.blk.regRead_keyRoot⟩

end

section
/-!
PROOF. The program store (R220, R221, R254): writes and reads of its windows, and the locks of its regions.
-/

namespace Sys2Proof.Machine

/-! ### A bit and its field -/

/-- A field of one bit is that bit as a number (R12). -/
theorem fld_eq_b2n_bit {w : Nat} (v : BitVec w) (i : Nat) : fld v i i = b2n (bit v i) := by
  have one : i + 1 - i = 1 := by omega
  unfold fld bits bit b2n
  rw [one, Nat.pow_one, ← BitVec.testBit_toNat, ← Nat.toNat_testBit]
  cases v.toNat.testBit i <;> rfl

theorem Block.rf_eq_b2n_bit (b : Block) (w i : Nat) : b.rf w i i = b2n (bit (b.peek w) i) := fld_eq_b2n_bit _ i

theorem Block.bit_peek_iff {b : Block} {w i : Nat} : bit (b.peek w) i = true ↔ b.rf w i i = 1 := by
  rw [Block.rf_eq_b2n_bit]
  cases bit (b.peek w) i <;> simp [b2n]

/-- A write to one bit leaves every other bit. -/
theorem Block.rf_setRf_bit_ne (b : Block) (w : Nat) {i j : Nat} (x : Nat) (hi : i < 64) (h : j ≠ i) :
    (b.setRf w i i x).rf w j j = b.rf w j j := by
  rcases Nat.lt_or_gt_of_ne h with below | above
  · exact Block.rf_setRf_below b w x (Nat.le_succ i) hi below
  · exact Block.rf_setRf_above b w x (Nat.le_succ i) hi above

/-- A bit reads as what was last written to it. -/
theorem Block.rf_setRf_bit (b : Block) (w : Nat) {i : Nat} (x : Nat) (hi : i < 64) : (b.setRf w i i x).rf w i i = x % 2 := by
  have one : i + 1 - i = 1 := by omega
  rw [Block.rf_setRf b w x (Nat.le_succ i) hi, one, Nat.pow_one]

/-! ### The register port -/

/-- A privileged write through the register port, its parity right and its domain up, does what its register's command does (R281). -/
theorem After.of_portGate {c : Instr} {s : State} {P : Block → Prop} {any : Bool} {w : Nat} {v : Word} {go : Block → Block}
    (live : s.live) (reg : isReg w = true) (up : s.blk.rst.down = false) (p : P ((go s.blk).answer 0 false))
    (e : exec c s = s.run fun b => b.portGate any (rpOk true w v) w v go := by rfl) : After c s P := by
  have parity : (rpOk true w v).wchk % 256 = rpCheck (w % 65536) v := Nat.mod_eq_of_lt (rpCheck_lt _ v)
  refine .of_run live ?_ e
  rwa [Block.portGate_open parity reg (.inl up) (.inr rfl)]

/-- A read through the register port, its parity right, answers the register's word (R282). -/
theorem Block.portRead_open (b : Block) (w : Nat) (d : Darn) (wdata : Word) :
    b.portRead w d wdata (rpCheck (w % 65536) wdata) = (b.readReg w d).1.answer (b.readReg w d).2 false := by
  unfold Block.portRead Block.rpAccess
  simp [Nat.mod_eq_of_lt (rpCheck_lt _ wdata)]

/-! ### The register window -/

theorem regAt_page (p : Nat) {off : Nat} (h : off < 4096) : regAt p off / 512 = p := by unfold regAt; omega

theorem regAt_offset (p : Nat) {off : Nat} (h : off < 4096) : regAt p off % 512 = off / 8 := by unfold regAt; omega

/-- A refused write sets PAGE_ERRORS of its register's page, and nothing else (R538). -/
theorem Block.refuse_eq (b : Block) (p : Nat) {off : Nat} (h : off < 4096) :
    b.refuse (regAt p off)
      = b.poke (regAt p 0x018) (setFld (setFld (satAdd (b.peek (regAt p 0x018)) 1) 63 60 2) 57 49 (off / 8)) := by
  unfold Block.refuse
  rw [regAt_page p h, regAt_offset p h]
  rfl

/-- A refused write counts with kind 2 in PAGE_ERRORS of its page (R538, Table 15.4). -/
theorem Block.rf_refuse_kind (b : Block) (p : Nat) {off : Nat} (h : off < 4096) :
    (b.refuse (regAt p off)).rf (regAt p 0x018) 63 60 = 2 := by
  calc (b.refuse (regAt p off)).rf (regAt p 0x018) 63 60
    _ = 2 % 2 ^ (63 + 1 - 60) := by
      rw [Block.refuse_eq b p h, Block.rf_poke, fld_setFld_above _ _ (by omega) (by omega) (by omega),
        fld_setFld _ _ (by omega) (by omega)]
    _ = 2 := by decide

/-- An index register advances while AUTO_INC is 1, wrapping at its width (R548). -/
theorem Block.rf_autoInc (b : Block) (w : Nat) {hi : Nat} (h : hi < 64) :
    (b.autoInc w hi).rf w hi 0 = if b.rf w 63 63 = 1 then (b.rf w hi 0 + 1) % 2 ^ (hi + 1) else b.rf w hi 0 := by
  unfold Block.autoInc
  simp only [Block.bit_peek_iff]
  split
  · exact Block.rf_setRf b w _ (Nat.zero_le _) h
  · rfl

@[simp] theorem Block.rf_autoInc_ne (b : Block) {w w' : Nat} (n hi lo : Nat) (h : w' ≠ w) :
    (b.autoInc w n).rf w' hi lo = b.rf w' hi lo := by
  unfold Block.autoInc
  split
  · exact Block.rf_setRf_ne b _ _ _ _ _ h
  · rfl

@[simp] theorem Block.autoInc_fold (b : Block) (w hi : Nat) : (b.autoInc w hi).fold = b.fold := by
  unfold Block.autoInc
  split <;> rfl

/-! ### The windows of the program store -/

/-- The instruction that a window's INDEX selects. -/
abbrev Block.pstoreIndex (b : Block) (x : Nat) : Nat := b.rf (regAt (0x41 + x) 0x040) 13 0

/-- Whether the region of the instruction that a window selects is locked (R221). -/
abbrev Block.pstoreLocked (b : Block) (x : Nat) : Bool := bit (b.peek (fo 0x100)) (b.pstoreIndex x / 1024)

/-- The block with instruction `i` replaced, which is then no longer bad (R223). -/
def Block.putInstr (b : Block) (i : Nat) (instr : Slot) : Block :=
  { b with fold := { b.fold with store := Tbl.set 0 b.fold.store i instr, bad := b.fold.bad.filter (· != i) } }

@[simp] theorem Block.rf_putInstr (b : Block) (i : Nat) (instr : Slot) (w hi lo : Nat) :
    (b.putInstr i instr).rf w hi lo = b.rf w hi lo := rfl

/-- A write of HIGH whose region is locked is refused, and INDEX advances all the same (R221, R548). -/
theorem Block.pstoreHigh_locked {b : Block} {x : Nat} (h : b.pstoreLocked x = true) (v : Word) :
    b.pstoreHigh x v = (b.refuse (regAt (0x41 + x) 0x050)).autoInc (regAt (0x41 + x) 0x040) 13 := by
  unfold Block.pstoreHigh
  simp [h]

/-- One whose region is not stores LOW and HIGH at INDEX (R254). -/
theorem Block.pstoreHigh_unlocked {b : Block} {x : Nat} (h : b.pstoreLocked x = false) (v : Word) :
    b.pstoreHigh x v
      = (b.putInstr (b.pstoreIndex x) (BitVec.ofNat 128 ((b.peek (regAt (0x41 + x) 0x048)).toNat + v.toNat * 2 ^ 64))).autoInc
        (regAt (0x41 + x) 0x040) 13 := by
  unfold Block.pstoreHigh
  simp [h, Block.putInstr]

/-- Stored or refused, a write of HIGH advances INDEX while AUTO_INC is 1 (R548). -/
theorem Block.pstoreIndex_pstoreHigh (b : Block) (x : Nat) (v : Word) :
    (b.pstoreHigh x v).pstoreIndex x
      = if b.rf (regAt (0x41 + x) 0x040) 63 63 = 1 then (b.pstoreIndex x + 1) % 2 ^ 14 else b.pstoreIndex x := by
  cases h : b.pstoreLocked x
  case false =>
    rw [Block.pstoreHigh_unlocked h, Block.pstoreIndex, Block.rf_autoInc _ _ (by omega), Block.rf_putInstr, Block.rf_putInstr]
  case true =>
    have other : regAt (0x41 + x) 0x040 ≠ regAt (0x41 + x) 0x018 := by unfold regAt; omega
    rw [Block.pstoreHigh_locked h, Block.pstoreIndex, Block.rf_autoInc _ _ (by omega), Block.refuse_eq _ _ (by omega),
      Block.rf_poke_ne _ _ _ _ other, Block.rf_poke_ne _ _ _ _ other]

/-- The instruction written is the one at INDEX, good from then on; no other changes (R223, R254). -/
theorem Block.pstoreHigh_stores {b : Block} {x : Nat} (h : b.pstoreLocked x = false) (v : Word) :
    Tbl.get 0 (b.pstoreHigh x v).fold.store (b.pstoreIndex x)
        = BitVec.ofNat 128 ((b.peek (regAt (0x41 + x) 0x048)).toNat + v.toNat * 2 ^ 64)
      ∧ (b.pstoreHigh x v).fold.bad.contains (b.pstoreIndex x) = false
      ∧ ∀ j, j ≠ b.pstoreIndex x → Tbl.get 0 (b.pstoreHigh x v).fold.store j = Tbl.get 0 b.fold.store j := by
  rw [Block.pstoreHigh_unlocked h, Block.autoInc_fold]
  refine ⟨Tbl.get_set _ _ _ _, ?_, fun j hj => Tbl.get_set_ne _ _ _ _ hj⟩
  simp [Block.putInstr]

/-- A refused write of HIGH leaves the store, and counts as refused on the window's page (R221, R538). -/
theorem Block.pstoreHigh_refuses {b : Block} {x : Nat} (h : b.pstoreLocked x = true) (v : Word) :
    (b.pstoreHigh x v).fold.store = b.fold.store ∧ (b.pstoreHigh x v).rf (regAt (0x41 + x) 0x018) 63 60 = 2 := by
  have other : regAt (0x41 + x) 0x018 ≠ regAt (0x41 + x) 0x040 := by unfold regAt; omega
  rw [Block.pstoreHigh_locked h]
  constructor
  · rw [Block.autoInc_fold, Block.refuse_eq _ _ (by omega), Block.poke_fold]
  · rw [Block.rf_autoInc_ne _ _ _ _ other, Block.rf_refuse_kind _ _ (by omega)]

theorem pageKind_pstore : ∀ x < 8, pageKind (0x41 + x) = some 0x41 := by decide

theorem isReg_pstoreHigh : ∀ x < 8, isReg (regAt (0x41 + x) 0x050) = true := by decide

/-- A read of LOW answers the low half of the instruction that INDEX selects (R254). -/
theorem Block.regRead_pstoreLow {b : Block} {x : Nat} (hx : x < 8) (up : b.rst.down = false) :
    b.regRead (regAt (0x41 + x) 0x048) = word (b.instr (b.pstoreIndex x)).toNat := by
  have off : regAt (0x41 + x) 0x048 % 512 * 8 = 0x048 := by rw [regAt_offset _ (by omega)]
  unfold Block.regRead
  rw [regAt_page _ (by omega), pageKind_pstore x hx, off]
  simp [up, Block.readWorked, Block.readPstore]

/-- The block with the high half of the instruction that a window's INDEX selects latched for a read of HIGH (R254). -/
def Block.latchHigh (b : Block) (x : Nat) : Block :=
  { b with fold := { b.fold with latch := b.fold.latch.set x (word ((b.instr (b.pstoreIndex x)).toNat / 2 ^ 64)) } }

/-- A read of LOW latches the high half of that instruction and does no more (R254). -/
theorem Block.afterRead_pstoreLow {b : Block} {x : Nat} (hx : x < 8) (up : b.rst.down = false) :
    b.afterRead (regAt (0x41 + x) 0x048) = b.latchHigh x := by
  have off : regAt (0x41 + x) 0x048 % 512 * 8 = 0x048 := by rw [regAt_offset _ (by omega)]
  have other : ∀ p o, 0x48 < p → regAt (0x41 + x) 0x048 ≠ regAt p o := by unfold regAt; omega
  have page : regAt (0x41 + x) 0x048 / 512 = 0x41 + x := regAt_page _ (by omega)
  unfold Block.afterRead
  simp [up, sg, ct, rt, cx, other, off, page, pageKind_pstore x hx, Block.latchHigh]

/-- No counter's word is read with a word of the program store (R159). -/
theorem Block.regFind_pstoreLow (b : Block) {x : Nat} (hx : x < 8) (d : Darn) : b.regFind false (regAt (0x41 + x) 0x048) d = b := by
  have other : regAt (0x41 + x) 0x048 ≠ ct 0x048 := by unfold ct regAt; omega
  unfold Block.regFind
  simp [other]

theorem Block.readReg_pstoreLow {b : Block} {x : Nat} (hx : x < 8) (up : b.rst.down = false) (d : Darn) :
    b.readReg (regAt (0x41 + x) 0x048) d = (b.latchHigh x, word (b.instr (b.pstoreIndex x)).toNat) := by
  unfold Block.readReg
  simp only [Block.regFind_pstoreLow b hx, Block.afterRead_pstoreLow hx up, Block.regRead_pstoreLow hx up]

/-! ### The locks of the regions -/

/-- All of a region that bears on its lock: the lock bit, the bit of a pending clear, whether a program runs in it (R221). -/
def Block.lockView (b : Block) (g : Nat) : Nat × Nat × Bool :=
  (b.rf (fo 0x100) g g, b.rf (fo 0x100) (16 + g) (16 + g), b.regionBusy g)

/-- What a bit written to PSTORE_LOCK makes of its region (R221). -/
def lockNext (written : Bool) : Nat × Nat × Bool → Nat × Nat × Bool
  | (lock, clear, busy) =>
    if written then (1, 0, busy) else if lock = 1 then (b2n busy, b2n busy, busy) else (lock, clear, busy)

/-- What a write of PSTORE_LOCK does for one region (R221). -/
def Block.lockStep (v : Word) (b : Block) (g : Nat) : Block :=
  let w := fo 0x100
  if bit v g then (b.setRf w g g 1).setRf w (16 + g) (16 + g) 0
  else if !(bit (b.peek w) g) then b
  else if b.regionBusy g then b.setRf w (16 + g) (16 + g) 1
  else (b.setRf w g g 0).setRf w (16 + g) (16 + g) 0

theorem Block.pstoreLock_eq (b : Block) (v : Word) : b.pstoreLock v = (List.range 16).foldl (Block.lockStep v) b := rfl

@[simp] theorem Block.regionBusy_setRf (b : Block) (w hi lo x g : Nat) : (b.setRf w hi lo x).regionBusy g = b.regionBusy g := rfl

/-- Both bits of a region written: what that leaves of the region. -/
theorem Block.lockView_setRf (b : Block) {g : Nat} (hg : g < 16) (x y : Nat) :
    ((b.setRf (fo 0x100) g g x).setRf (fo 0x100) (16 + g) (16 + g) y).lockView g = (x % 2, y % 2, b.regionBusy g) := by
  unfold Block.lockView
  rw [Block.rf_setRf_bit_ne _ _ _ (by omega) (by omega), Block.rf_setRf_bit _ _ _ (by omega), Block.rf_setRf_bit _ _ _ (by omega)]
  rfl

/-- A bit of one region written leaves every other region. -/
theorem Block.lockView_setRf_ne (b : Block) {g h i : Nat} (x : Nat) (hg : g < 16) (hh : h < 16) (hi : i = g ∨ i = 16 + g) (ne : h ≠ g) :
    (b.setRf (fo 0x100) i i x).lockView h = b.lockView h := by
  unfold Block.lockView
  rw [Block.rf_setRf_bit_ne _ _ _ (by omega) (by omega), Block.rf_setRf_bit_ne _ _ _ (by omega) (by omega), Block.regionBusy_setRf]

theorem Block.lockView_lockStep (v : Word) (b : Block) {g : Nat} (hg : g < 16) :
    (b.lockStep v g).lockView g = lockNext (bit v g) (b.lockView g) := by
  unfold Block.lockStep
  dsimp only
  split
  next written =>
    rw [Block.lockView_setRf b hg, written]
    simp only [lockNext, Block.lockView, ↓reduceIte, Nat.one_mod, Nat.zero_mod]
  next written =>
    split
    next unset =>
      have lock : b.rf (fo 0x100) g g ≠ 1 := fun h => by simp [Block.bit_peek_iff.mpr h] at unset
      simp only [lockNext, Block.lockView, written, lock, Bool.false_eq_true, ↓reduceIte]
    next set =>
      have lock : b.rf (fo 0x100) g g = 1 := Block.bit_peek_iff.mp (by simpa using set)
      split
      next busy =>
        unfold Block.lockView
        rw [Block.rf_setRf_bit_ne _ _ _ (by omega) (by omega), Block.rf_setRf_bit _ _ _ (by omega), Block.regionBusy_setRf]
        simp only [lockNext, written, lock, busy, b2n, Bool.false_eq_true, ↓reduceIte, Nat.one_mod]
      next idle =>
        rw [Block.lockView_setRf b hg]
        simp only [lockNext, Block.lockView, written, lock, idle, b2n, Bool.false_eq_true, ↓reduceIte, Nat.zero_mod]

theorem Block.lockView_lockStep_ne (v : Word) (b : Block) {g h : Nat} (hg : g < 16) (hh : h < 16) (ne : h ≠ g) :
    (b.lockStep v g).lockView h = b.lockView h := by
  have leaves : ∀ (c : Block) (x : Nat), (c.setRf (fo 0x100) g g x).lockView h = c.lockView h :=
    fun c x => c.lockView_setRf_ne x hg hh (.inl rfl) ne
  have leaves' : ∀ (c : Block) (x : Nat), (c.setRf (fo 0x100) (16 + g) (16 + g) x).lockView h = c.lockView h :=
    fun c x => c.lockView_setRf_ne x hg hh (.inr rfl) ne
  unfold Block.lockStep
  dsimp only
  split
  next => rw [leaves', leaves]
  next =>
    split
    next => rfl
    next =>
      split
      next => exact leaves' b 1
      next => rw [leaves', leaves]

/-- One step per region listed, no region listed twice: each listed region is treated by its own bit, the others stay. -/
theorem Block.lockView_foldl (v : Word) {g : Nat} (hg : g < 16) (l : List Nat) (small : ∀ h ∈ l, h < 16) (once : l.Nodup) (b : Block) :
    (l.foldl (Block.lockStep v) b).lockView g = if g ∈ l then lockNext (bit v g) (b.lockView g) else b.lockView g := by
  induction l generalizing b with
  | nil => rfl
  | cons h l ih =>
    obtain ⟨fresh, once⟩ := List.nodup_cons.mp once
    obtain ⟨hh, small⟩ := List.forall_mem_cons.mp small
    rw [List.foldl_cons, ih small once]
    by_cases same : g = h
    · subst same
      simp [fresh, Block.lockView_lockStep v b hg]
    · simp [same, Block.lockView_lockStep_ne v b hh hg same]

/-- A write of PSTORE_LOCK treats every region by its own bit (R221). -/
theorem Block.lockView_pstoreLock (b : Block) (v : Word) {g : Nat} (hg : g < 16) :
    (b.pstoreLock v).lockView g = lockNext (bit v g) (b.lockView g) := by
  rw [Block.pstoreLock_eq, Block.lockView_foldl v hg _ (fun h => List.mem_range.mp) List.nodup_range, if_pos (List.mem_range.mpr hg)]

/-- A lock bit written 1 sets at once, and drops a clear that was pending (R221). -/
theorem Block.pstoreLock_set (b : Block) {v : Word} {g : Nat} (hg : g < 16) (written : bit v g = true) :
    (b.pstoreLock v).rf (fo 0x100) g g = 1 ∧ (b.pstoreLock v).rf (fo 0x100) (16 + g) (16 + g) = 0 := by
  have view := b.lockView_pstoreLock v hg
  rw [written] at view
  obtain ⟨lock, clear, -⟩ : _ ∧ _ ∧ _ := by simpa [Block.lockView, lockNext] using view
  exact ⟨lock, clear⟩

/-- One written 0 where the region is locked clears at once unless a program runs in the region; then its clear is pending (R221). -/
theorem Block.pstoreLock_clear {b : Block} {v : Word} {g : Nat} (hg : g < 16) (written : bit v g = false)
    (lock : b.rf (fo 0x100) g g = 1) :
    (b.pstoreLock v).rf (fo 0x100) g g = b2n (b.regionBusy g)
      ∧ (b.pstoreLock v).rf (fo 0x100) (16 + g) (16 + g) = b2n (b.regionBusy g) := by
  have view := b.lockView_pstoreLock v hg
  rw [written] at view
  obtain ⟨lock', clear, -⟩ : _ ∧ _ ∧ _ := by simpa [Block.lockView, lockNext, lock] using view
  exact ⟨lock', clear⟩

/-- One written 0 where the region is not locked stays 0. -/
theorem Block.pstoreLock_open {b : Block} {v : Word} {g : Nat} (hg : g < 16) (written : bit v g = false)
    (lock : b.rf (fo 0x100) g g = 0) : (b.pstoreLock v).rf (fo 0x100) g g = 0 := by
  have view := b.lockView_pstoreLock v hg
  rw [written] at view
  obtain ⟨lock', -⟩ : _ ∧ _ ∧ _ := by simpa [Block.lockView, lockNext, lock] using view
  exact lock'

/-- A pending clear takes effect once no program runs in the region (R221). -/
theorem Block.lockClears_open {b : Block} {g : Nat} (hg : g < 16) (due : b.rf (fo 0x100) (16 + g) (16 + g) = 1)
    (idle : b.regionBusy g = false) :
    b.lockClears g = (b.setRf (fo 0x100) g g 0).setRf (fo 0x100) (16 + g) (16 + g) 0 := by
  unfold Block.lockClears
  simp [hg, Block.bit_peek_iff.mpr due, idle]

/-- It clears the lock bit and the pending bit, and changes no other register. -/
theorem Block.lockClears_clears {b : Block} {g : Nat} (hg : g < 16) (due : b.rf (fo 0x100) (16 + g) (16 + g) = 1)
    (idle : b.regionBusy g = false) :
    (b.lockClears g).rf (fo 0x100) g g = 0 ∧ (b.lockClears g).rf (fo 0x100) (16 + g) (16 + g) = 0
      ∧ ∀ w, w ≠ fo 0x100 → (b.lockClears g).peek w = b.peek w := by
  have view := b.lockView_setRf hg 0 0
  rw [Block.lockClears_open hg due idle]
  obtain ⟨lock, clear⟩ : _ ∧ _ := by simpa [Block.lockView] using view
  refine ⟨lock, clear, fun w other => ?_⟩
  rw [Block.peek_setRf_ne _ _ _ _ other, Block.peek_setRf_ne _ _ _ _ other]

/-! ### The commands -/

/-- A read of LOW through the register port answers the low half and latches the high one (R254). -/
theorem After.pstoreLowRead_latches {s : State} (live : s.live) (up : s.blk.rst.down = false) {x : Nat} (hx : x < 8) :
    After (.pstoreLowRead (rpRead x (regAt (0x41 + x) 0x048))) s fun b =>
      b = (s.blk.latchHigh x).answer (word (s.blk.instr (s.blk.pstoreIndex x)).toNat) false := by
  refine .of_run (f := fun b => b.portRead (regAt (0x41 + x) 0x048) .good 0 (rpCheck (regAt (0x41 + x) 0x048 % 65536) 0)) live ?_
  rw [Block.portRead_open, Block.readReg_pstoreLow hx up]

end Sys2Proof.Machine

open Sys2Proof Sys2Proof.Machine

/-- Settles O21: a write of HIGH by whether its region is locked, a read of LOW by the instruction at INDEX, and a write of the locks as
sixteen steps, each of which leaves the other regions. -/
theorem programStore : Obligations.ProgramStore := by
  refine fun s live => ⟨fun up x hx => ⟨fun v => ?high, ?low⟩, fun up v => ?lock, fun g hg due idle => ?clear⟩
  case high =>
    exact .of_portGate (go := fun b => b.pstoreHigh x v) live (isReg_pstoreHigh x hx) up
      ⟨s.blk.pstoreIndex_pstoreHigh x v, fun h => Block.pstoreHigh_stores h v, fun h => Block.pstoreHigh_refuses h v⟩
  case low =>
    obtain ⟨b, ran, rfl⟩ := After.pstoreLowRead_latches live up hx
    exact ⟨_, ran, rfl, rfl, rfl⟩
  case lock =>
    have reg : isReg (fo 0x100) = true := by decide
    exact .of_portGate (go := fun b => b.pstoreLock v) live reg up fun g hg =>
      ⟨s.blk.pstoreLock_set hg, Block.pstoreLock_clear hg, Block.pstoreLock_open hg⟩
  case clear => exact .of_run (f := fun b => b.lockClears g) live (Block.lockClears_clears hg due idle)

end
